-- ==== Sys2Proof/Word.lean ====
section
/-! DEFINITION. Word.lean: the word types of the part (R5, R7: everything wider than a byte is little-endian). -/

namespace Sys2Proof

/-- A byte of memory. -/
abbrev Byte := BitVec 8
/-- A register of a thread's lane (R131): 32 bits. -/
abbrev W32 := BitVec 32
/-- A register of control space, an address as it travels, a step-image word (R7, R13). -/
abbrev W64 := BitVec 64
/-- A mask over the 32 lanes of a thread group (R127): bit i is lane i. -/
abbrev LaneMask := BitVec 32
/-- A mask over the 192 pods (R88 POD_MAP). -/
abbrev PodMask := BitVec 192
/-- A program counter (R179). -/
abbrev Pc := BitVec 48

end Sys2Proof
end

