-- ==== Sys2Proof/Syntax.lean ====
section
/-! DEFINITION. Syntax.lean: the commands of the block, one constructor of `Instr` per row of spec/opcode_table.json,
with the operands the spec gives the row. A command is an instruction issued by a thread group of a tile, an event that the
part's own timing brings about, a message from another device, a host access, a Symbite command or a pin. Operands named
`now` are the domain time of the event, in tenths of a nanosecond (log 5). -/

namespace Sys2Proof

/-- Logical tile index (R19). -/
abbrev TileId := Fin 3072
/-- Group slot of a tile (R127, 16 slots). -/
abbrev GroupId := Fin 16
abbrev SliceId := Fin 256
abbrev PortId := Fin 18
abbrev StackId := Fin 24
abbrev PodId := Fin 192
abbrev RegionId := Fin 48
abbrev RailId := Fin 33
abbrev DieId := Fin 12
abbrev TuberId := Fin 4
abbrev CtxId := Fin 16
abbrev DevId := Fin 64
/-- Function number: 0 is the PF, 1–63 the VFs (R618). -/
abbrev FnId := Fin 64

/-- What a device's STEP_STATUS says of its step (R79). -/
inductive StepReport where
  | complete | running | faulted
deriving DecidableEq, Repr

/-- The verdicts of R81. `noStep` is NONE. -/
inductive Verdict where
  | noStep | commit | stretch | abandon | halt
deriving DecidableEq, Repr

/-- How a comparison reads its operands (R141 names compare; the forms are the model's, log 8). -/
inductive CmpKind where
  | s32 | u32 | f32
deriving DecidableEq, Repr

inductive CmpOp where
  | eq | ne | lt | le | gt | ge
deriving DecidableEq, Repr

structure Cond where
  kind : CmpKind
  op   : CmpOp
deriving DecidableEq, Repr

/-- The logic operations (R141 names the class; the forms are the model's, log 8). -/
inductive LogicOp where
  | and | or | xor | not
deriving DecidableEq, Repr

/-- Formats of CVT (R245, R266). -/
inductive Fmt where
  | fp32 | bf16 | e4m3 | e5m2 | int32 | int8 | int4
deriving DecidableEq, Repr

/-- Rounding modes of CVT and BCVT (R264). -/
inductive RMode where
  | rn | rz
deriving DecidableEq, Repr

/-- Saturation modifier of CVT (R266). -/
inductive SatMod where
  | default | sat | nosat
deriving DecidableEq, Repr

/-- Operations of ATOM and RED (R428); CAS is an instruction of its own. -/
inductive AtomOp where
  | add | and | or | xor | min | max | swap
deriving DecidableEq, Repr

/-- Types of ATOM, RED, RED.SEC and CAS (R428). -/
inductive AtomTy where
  | i32 | i64 | f32 | bf16 | b32 | b64 | s32 | u32 | s64 | u64
deriving DecidableEq, Repr

/-- Ordering marks of R481: .ACQ, .REL (both: .AR) and .FIN. -/
structure Marks where
  acq : Bool
  rel : Bool
  fin : Bool
deriving DecidableEq, Repr

/-- The counters CTR.RD and CTR.WAIT name (R354). -/
inductive CtrDir where
  | inj | ej | weight
deriving DecidableEq, Repr

/-- An error met when a slice or the HBM reads a stored sector (R413, R535). -/
inductive EccErr where
  | ok | ce | ue | tagUe
deriving DecidableEq, Repr

/-- Class of a Symbite packet (R657). -/
inductive CmdClass where
  | m | t | b | d | l
deriving DecidableEq, Repr

/-- Who issued a Symbite command, and the header fields its reply needs (R646, R650). `origin` is the sending device of a
forwarded packet (R665, R666). -/
structure Issue where
  op     : BitVec 16
  cls    : CmdClass
  fn     : FnId
  sq     : Nat
  tag    : W32
  gen    : W32
  notify : Bool
  remote : Option DevId
  origin : Option DevId
  outLen : Nat
deriving DecidableEq, Repr

/-- The stream key and owner of a remote request (R462, R496, R596). -/
structure RemoteKey where
  sender : Nat
  ingest : Bool
  fn     : FnId
  step   : Bool
  sid    : BitVec 12
deriving DecidableEq, Repr

/-- A request message of Bellith data traffic (R596): its key, end-to-end number (R589), local address at the target. -/
structure RemoteReq where
  port : PortId
  key  : RemoteKey
  seq  : Nat
  addr : Nat
  len  : Nat
deriving DecidableEq, Repr

/-- What a WR does at its target (R596): a store of whole sectors with its byte mask, or the operation of a drained RED or RED.SEC on one sector, as
byte offsets in it with their operands. -/
inductive RemoteWrite where
  | store (data : List Byte) (mask : List Bool)
  | red (op : AtomOp) (ty : AtomTy) (lanes : List (Nat × W64))
deriving DecidableEq, Repr

/-- What an AMO does (R596): ATOM, ATOM.CAS, LDRSV, STCND. -/
inductive AmoKind where
  | atom (op : AtomOp) (ty : AtomTy)
  | cas (ty : AtomTy)
  | ldrsv (wide holds : Bool)
  | stcnd (wide : Bool)
deriving DecidableEq, Repr

/-- One lane of an AMO: its number, its byte offset in the sector, its operands. -/
structure AmoLane where
  lane : Nat
  off  : Nat
  val  : W64
  cmp  : W64
deriving DecidableEq, Repr

/-- The step-tick part of a join (R590): what HELLO carries. -/
structure Hello where
  domainId : Nat
  dev      : DevId
  topology : Nat
  tickCfg  : W64
deriving DecidableEq, Repr

/-- A Bellith flit's header fields (R575), whether its CRC holds, and the round trip in ns measured with its acknowledgement (R579). -/
structure Flit where
  seq    : Nat
  ack    : Nat
  nak    : Bool
  ctrl   : Bool
  credit : Nat
  crcOk  : Bool
  rtt    : Nat
deriving DecidableEq, Repr

/-- Parameters of WINDOW_CREATE (R661, R372–R374, R538, R828). ADDR fields of the golden sources carry KIND and DEV as HBM_GOLD_SRCx (R562). -/
structure WinParams where
  base  : Nat
  size4k : Nat
  attr  : W64
  ways  : Nat
  grant : W64
  gold0 : W64
  gold1 : W64
deriving DecidableEq, Repr

/-- Parameters of VF_CREATE (R674). -/
structure VfParams where
  vf          : FnId
  share       : Nat
  seqFirst    : Nat
  seqCount    : Nat
  pageQuota   : Nat
  saveWin     : Nat
  saveSlots   : Nat
  saveSlotKib : Nat
  pods        : PodMask
deriving DecidableEq, Repr

/-- Actions of POD_ASSIGN (R679). -/
inductive PodAction where
  | grant | ungrant | join | leave
deriving DecidableEq, Repr

/-- Parameters of QUEUE_CREATE (R656). -/
structure QueueParams where
  completion  : Bool
  events      : Bool
  queue       : Nat
  targetFn    : FnId
  entriesLog2 : Nat
  slotLog2    : Nat
  vector      : Nat
  cq          : Nat
  base        : Nat
deriving DecidableEq, Repr

/-- Parameters of LAUNCH (R664). -/
structure LaunchParams where
  code       : Nat
  blocks     : Nat
  nReg       : Nat
  groups     : Nat
  l1Size     : Nat
  localBytes : Nat
  pods       : PodMask
  argPtr     : Nat
deriving DecidableEq, Repr

/-- Host-owned fields of a sequence slot that SEQ_WRITE writes (R101, R661). -/
structure SeqParams where
  slot        : Nat
  live        : Bool
  hold        : Bool
  vf          : FnId
  pmapPtr     : Nat
  statePtr    : Nat
  clearFaulted : Bool
deriving DecidableEq, Repr

/-- A fault the training of a lane finds (R568). -/
inductive LaneFault where
  | ground | supply | pn | opened | margin | cross
deriving DecidableEq, Repr

/-- The commands of the block: one constructor per row of spec/opcode_table.json, in its order. -/
inductive Instr where
  -- 02 The Step Tick
  | tickBoundary
  | stepStart (now : Nat)
  | stepComplete (now : Nat)
  | guardStart
  | stepStatusReceived (dev : DevId) (rep : StepReport) (slotsFaulted slotsReplay : Nat)
  | verdictDecision
  | verdict (v : Verdict) (overrun : Bool)
  | announceSend
  | announce (tick : Nat) (boundary : Nat) (ctl : W64)
  | syncSend
  | sync (master : DevId) (masterTime hopDelay now : Nat)
  | holdover (now : Nat)
  | masterLost (now : Nat)
  -- 03, 05 SIMT arithmetic
  | iadd (t : TileId) (g : GroupId) (vd va vb : Nat)
  | imul (t : TileId) (g : GroupId) (vd va vb : Nat)
  | fadd (t : TileId) (g : GroupId) (vd va vb : Nat)
  | fmul (t : TileId) (g : GroupId) (vd va vb : Nat)
  | fma (t : TileId) (g : GroupId) (vd va vb vc : Nat)
  | compare (t : TileId) (g : GroupId) (c : Cond) (vd va vb : Nat)
  | select (t : TileId) (g : GroupId) (vd vp va vb : Nat)
  | logic (t : TileId) (g : GroupId) (op : LogicOp) (vd va vb : Nat)
  | cvt (t : TileId) (g : GroupId) (dst src : Fmt) (m : RMode) (sat : SatMod) (vd vs : Nat)
  | shfl (t : TileId) (g : GroupId) (vd va vb : Nat)
  | rcp (t : TileId) (g : GroupId) (vd vs : Nat)
  | rsq (t : TileId) (g : GroupId) (vd vs : Nat)
  | sqrt (t : TileId) (g : GroupId) (vd vs : Nat)
  | exp2 (t : TileId) (g : GroupId) (vd vs : Nat)
  | log2 (t : TileId) (g : GroupId) (vd vs : Nat)
  | sin (t : TileId) (g : GroupId) (vd vs : Nat)
  | cos (t : TileId) (g : GroupId) (vd vs : Nat)
  | bra (t : TileId) (g : GroupId) (c : Cond) (va vb : Nat) (target reconv : Pc)
  | jmp (t : TileId) (g : GroupId) (target : Pc)
  | jmpInd (t : TileId) (g : GroupId) (vs : Nat) (reconv : Pc)
  | call (t : TileId) (g : GroupId) (vd : Nat) (target : Pc)
  | ret (t : TileId) (g : GroupId) (vs : Nat) (reconv : Pc)
  | s2r (t : TileId) (g : GroupId) (vd code : Nat)
  | exit (t : TileId) (g : GroupId)
  | trap (t : TileId) (g : GroupId) (imm : BitVec 16)
  -- 07, 09, 10 memory instructions
  | ldS (t : TileId) (g : GroupId) (size : Nat) (sx : Bool) (vd va : Nat)
  | stS (t : TileId) (g : GroupId) (size : Nat) (va vs : Nat)
  | ld (t : TileId) (g : GroupId) (size : Nat) (sx : Bool) (m : Marks) (vd va : Nat)
  | st (t : TileId) (g : GroupId) (size : Nat) (m : Marks) (va vs : Nat)
  | atom (t : TileId) (g : GroupId) (op : AtomOp) (ty : AtomTy) (m : Marks) (vd va vs : Nat)
  | atomCas (t : TileId) (g : GroupId) (ty : AtomTy) (m : Marks) (vd va vs vc : Nat)
  | red (t : TileId) (g : GroupId) (op : AtomOp) (ty : AtomTy) (m : Marks) (va vs : Nat)
  | redSec (t : TileId) (g : GroupId) (op : AtomOp) (ty : AtomTy) (m : Marks) (va vs : Nat)
  | ldrsv (t : TileId) (g : GroupId) (wide : Bool) (m : Marks) (vd va : Nat)
  | stcnd (t : TileId) (g : GroupId) (wide : Bool) (m : Marks) (vd va vs : Nat)
  | discard (t : TileId) (g : GroupId) (va : Nat)
  | prefetch (t : TileId) (g : GroupId) (va : Nat)
  | ldAcc (t : TileId) (g : GroupId) (vd va : Nat)
  | stAcc (t : TileId) (g : GroupId) (va vs : Nat)
  | bcvtSb4F32 (t : TileId) (g : GroupId) (m : RMode) (vd vs : Nat)
  | bcvtF32Sb4 (t : TileId) (g : GroupId) (vd vs : Nat)
  -- 04 matrix unit
  | mmaIssue (t : TileId) (g : GroupId) (vt vd : Nat)
  | descriptorCopy (t : TileId)
  | mmaWait (t : TileId) (g : GroupId) (vt : Nat)
  | mmaWaitSt (t : TileId) (g : GroupId) (vs vt : Nat)
  | mmaWaitAll (t : TileId) (g : GroupId)
  -- 03 barriers
  | gbar (t : TileId) (g : GroupId)
  | bbar (t : TileId) (g : GroupId) (rel : Bool)
  | barrierTimeout (t : TileId) (b : Fin 8)
  -- 06, 07 streams and counters
  | meshStream (t : TileId) (g : GroupId) (vs : Nat)
  | meshReady (t : TileId) (g : GroupId)
  | ctrRd (t : TileId) (g : GroupId) (vd : Nat) (dir : CtrDir) (stream : Nat)
  | ctrWait (t : TileId) (g : GroupId) (dir : CtrDir) (stream vs : Nat)
  -- 09 transactions
  | txBegin (t : TileId) (g : GroupId) (vd : Nat) (target : Pc)
  | txCommit (t : TileId) (g : GroupId)
  | txAbort (t : TileId) (g : GroupId) (imm : BitVec 8)
  | txAbortNotice (t : TileId) (g : GroupId)
  | txTimeout (t : TileId) (g : GroupId)
  -- 10 ordering
  | fenceAcq (t : TileId) (g : GroupId)
  | fenceRel (t : TileId) (g : GroupId) (vd : Nat)
  | fenceAr (t : TileId) (g : GroupId) (vd : Nat)
  | acquireComplete (t : TileId) (g : GroupId)
  | releaseSend (t : TileId) (g : GroupId)
  | fenceTimeout (t : TileId) (g : GroupId)
  | devfence (t : TileId) (g : GroupId)
  | sidSet (t : TileId) (g : GroupId) (vs : Nat)
  | consume (t : TileId) (g : GroupId) (vs vc : Nat)
  | controlSpaceAccess (t : TileId) (g : GroupId) (write wide : Bool) (vd va : Nat)
  | loadDataReturn (id : Nat)
  | storeBufferDrain (t : TileId)
  -- work on a tile
  | blockStart (t : TileId) (now : Nat)
  | kernelEnd (t : TileId) (now : Nat)
  | tileEcc (t : TileId) (now : Nat)
  | tileSelfTestDone (t : TileId) (pass routerPass : Bool) (now : Nat)
  | idleGate (t : TileId)
  | drainLimit (t : TileId)
  | mmaTranslation (t : TileId)
  | mapReadReturn (t : TileId) (err : EccErr)
  | stagingDataReturn (t : TileId) (err : EccErr)
  | arrayStart (t : TileId)
  | mmaComplete (t : TileId)
  | weightDescriptorActive (t : TileId) (ch : Fin 2)
  | weightLineWrite (t : TileId) (ch : Fin 2) (line : Nat) (err : EccErr) (errSector : Fin 4)
  -- 06 static mesh
  | gateOpen
  | gateLeave
  | routerSlot (r : TileId) (sched : EccErr) (bridgeUe : Option (Fin 4))
  -- 08, 09 slices
  | sliceRead (id : Nat) (err : EccErr)
  | sliceWrite (id : Nat)
  | fillComplete (line : Nat) (err : EccErr) (errSector : Fin 4)
  | fillWaitEnd (id : Nat)
  | missEntryWaitEnd (id : Nat)
  | sliceAtomic (id : Nat)
  | pinWaitEnd (id : Nat)
  | sliceReservation (id : Nat)
  | sliceStcnd (id : Nat)
  | reservationGuardExpiry (line : Nat)
  | leaseExpiry (line : Nat)
  | sliceDiscard (id : Nat)
  | prefetchHint (id : Nat)
  | txClaim (id : Nat)
  | txCommitApply (t : TileId) (g : GroupId)
  | cleanDone (token : Nat)
  | tagLoss (sl : SliceId) (set : Fin 1024) (way : Fin 16) (now : Nat)
  -- 10, 13 remote operations
  | wr (r : RemoteReq) (w : RemoteWrite) (final : Option Nat) (err : EccErr) (errSector : Fin 16)
  | finalPerform (key : RemoteKey) (err : EccErr) (errSector : Fin 16)
  | rd (r : RemoteReq) (err : EccErr) (errSector : Fin 16)
  | amo (r : RemoteReq) (k : AmoKind) (holder : Nat) (lanes : List AmoLane) (err : EccErr)
  | ack (dev : DevId) (seq : Nat) (denied : Bool)
  | rdata (id : Nat) (data : List Byte) (poison dead denied : Bool)
  | remoteLostTimeout (id : Nat)
  -- 13 links and domain
  | flitReceive (p : PortId) (f : Flit)
  | ackTimeout (p : PortId)
  | retrainDone (p : PortId) (ok : Bool) (now : Nat)
  | probe (p : PortId) (faults : List (Fin 8 × LaneFault))
  | laneId (p : PortId) (reversed ordered : Bool) (inverted farQuarantine : BitVec 8)
  | eqTrain (p : PortId) (lowMargin : BitVec 8)
  | handshake (p : PortId) (domainId : Nat) (dev : DevId) (port mode : Nat)
  | linkUp (p : PortId)
  | downRetry (p : PortId)
  | eqAdapt (p : PortId)
  | marginUpdate (p : PortId) (margins : List (Fin 8 × Nat × Nat × Nat))
  | hello (h : Hello)
  | memberSend
  | member (mask : W64)
  | peerDeadTimeout (d : DevId)
  | routeLostSend (d : DevId)
  | routeLost (reporter d : DevId)
  | domainLeave
  | symbiteFwd (sender : DevId) (isReply : Bool) (id : Nat) (cls : CmdClass) (fn : FnId) (op : BitVec 16) (body : List Byte)
  | ingestStatus (p : PortId) (foreign : Bool)
  | forwardTimeout (id : Nat)
  -- 14 host coupling
  | dbpSqDb (fn : FnId) (q : Fin 32) (value : W32)
  | dbpCqDb (fn : FnId) (q : Fin 32) (value : W32)
  | dbpQCtl (fn : FnId) (q : Fin 32) (wide : Bool) (value : W64)
  | dbpMbxSend (fn : FnId)
  | uciMbxSend (mask : W64)
  | slotReadData (fn : FnId) (q : Fin 32) (slot : List Byte)
  | slotReread (fn : FnId) (q : Fin 32)
  | hostReadTimeout (fn : FnId) (q : Fin 32) (gen : Option W32)
  | commandStart (fn : FnId) (q : Fin 32)
  | bar0Access (offset : Nat) (width : Nat) (write : Bool) (value : W64)
  | bar2Access (offset : Nat) (write : Bool) (len : Nat) (data : List Byte)
  | linkDown (now : Nat)
  | linkRetrain (modules : BitVec 2) (repaired0 repaired1 : Nat)
  | detachTimeout (now : Nat)
  | hotReset
  | vfFlr (fn : FnId)
  | pfFlr
  -- 15 Symbite commands
  | nop (c : Issue)
  | identify (c : Issue)
  | attach (c : Issue)
  | inventoryRead (c : Issue) (cursor : Nat)
  | logRead (c : Issue) (log cursor : Nat)
  | queueCreate (c : Issue) (p : QueueParams)
  | queueDestroy (c : Issue) (completion : Bool) (q : Nat) (fn : FnId)
  | vfCreate (c : Issue) (p : VfParams)
  | vfDestroy (c : Issue) (vf : FnId) (deadWindows : Bool)
  | vfSetShare (c : Issue) (vf : FnId) (share : Nat)
  | queryAccount (c : Issue) (fn : FnId) (clear : Bool)
  | podAssign (c : Issue) (pods : PodMask) (fn : FnId) (a : PodAction)
  | windowCreate (c : Issue) (p : WinParams)
  | windowModify (c : Issue) (w : Nat) (ways : Nat) (grant : W64) (strict : Bool) (codec : Nat)
  | windowDestroy (c : Issue) (w : Nat)
  | waysLock (c : Issue) (l : Nat)
  | waysPower (c : Issue) (tuber : TuberId) (group : Fin 4) (on : Bool)
  | preload (c : Issue) (src dst len : Nat)
  | memRead (c : Issue) (addr : Nat)
  | memWrite (c : Issue) (addr : Nat) (data : List Byte)
  | pmapUpdate (c : Issue) (map first : Nat) (entries : List W64)
  | ingestBind (c : Issue) (p : PortId) (fn : Option FnId)
  | stackEvacuate (c : Issue) (st : StackId)
  | stepLoad (c : Issue) (addr len : Nat)
  | stepActivate (c : Issue) (imageId : W32)
  | stepHalt (c : Issue)
  | stepResume (c : Issue)
  | seqWrite (c : Issue) (p : SeqParams)
  | seqRead (c : Issue) (first count : Nat)
  | hint (c : Issue) (entries : List W64)
  | launch (c : Issue) (p : LaunchParams)
  | kernelKill (c : Issue) (tag : W32) (q : Nat)
  | revoke (c : Issue) (scope : BitVec 16)
  | domainJoin (c : Issue)
  | domainExclude (c : Issue) (d : DevId)
  | domainStatus (c : Issue)
  | powerLimit (c : Issue) (watts windowMs : Nat)
  | powerMode (c : Issue) (fixed : Bool)
  | sensorRead (c : Issue)
  | repair (c : Issue) (kind unit action join : Nat)
  | getAttest (c : Issue) (nonce : List Byte)
  | getCerts (c : Issue) (cursor : Nat)
  | fwLoad (c : Issue) (offset : Nat) (chunk : List Byte)
  | fwActivate (c : Issue)
  | imagePush (c : Issue) (offset : Nat) (chunk : List Byte)
  -- 18, 19 firmware
  | fwResume (now : Nat)
  | fwResumeTimeout (now : Nat)
  | slotWriteDone (ok : Bool)
  | kick (ctx : CtxId) (now : Nat)
  | watchdogExpiry (ctx : CtxId) (now : Nat)
  | controlCoreLoadStore (ctx : CtxId) (write : Bool) (addr len : Nat) (data : List Byte)
  -- 16 scheduler
  | schedulerCheck (now : Nat)
  | podDispatch (p : PodId) (now : Nat)
  | saveComplete (p : PodId) (now : Nat)
  | restoreComplete (p : PodId) (now : Nat)
  -- 17 power
  | fastThrottleCheck (currents : List (Fin 16 × Nat)) (now : Nat)
  | vrAlert (t : TuberId) (now : Nat)
  | throttleStretch (rail : Fin 16) (now : Nat)
  | throttleEnd (rail : Fin 16) (now : Nat)
  | droopTrip (r : RegionId) (now : Nat)
  | droopRecovery (r : RegionId) (now : Nat)
  | boostBarEnd (r : RegionId) (now : Nat)
  | packageLoop (estW riseW : Nat) (order : List RegionId) (now : Nat)
  | hintRaise (p : PodId) (level : Fin 4) (begins : Bool)
  | railSettled (rail : Fin 16) (mv : Nat)
  | calibration (readings : List (RailId × Nat × Nat × Nat)) (measW : Nat) (now : Nat)
  | thermalRead (regionTemps : List (RegionId × Nat × Nat)) (tuberTemps : List (TuberId × List Nat)) (now : Nat)
  | ageingCheck (slacks : List (RegionId × Nat)) (now : Nat)
  -- 12 HBM
  | refresh (st : StackId) (temp : Nat)
  | patrolScrub (line : Nat) (err : EccErr) (errSector : Fin 4) (lastOfPass : Bool)
  | rowCopyDone (pc row : Nat)
  | stackLost (st : StackId) (now : Nat)
  | migrationStart
  | migrationBlock
  | goldenData (block : Nat) (data : List Byte) (poisoned : Bool) (now : Nat)
  | sourceLimit (block : Nat) (now : Nat)
  | repairRetry (block : Nat) (now : Nat)
  | windowDegraded (block : Nat) (now : Nat)
  | hbmReset (st : StackId) (ok : Bool)
  | hbmCalibrate (st : StackId) (ok : Bool)
  | hbmLane (st : StackId) (ok : Bool)
  | hbmRepair (st : StackId) (ok : Bool)
  | hbmTest (st : StackId) (ok : Bool)
  | tgStart (st : StackId) (ch : Fin 16)
  | tgDone (st : StackId) (ch : Fin 16) (sectors miscompares : Nat) (first : Option W64)
  -- registers
  | tickCtlWrite (value : W64)
  | faultClear (t : TileId)
  | admqEnable (value : W64)
  | portEnable (p : PortId) (on : Bool)
  | rcRead (offset width : Nat)
  | registerWrite (offset width : Nat) (value : W64)
  -- 19, 20 boot, pins, management port, JTAG
  | porNAssert
  | porNRelease (mgSel : Bool) (mgAddr : BitVec 2)
  | header
  | owner
  | config
  | firmware
  | identity (failed : BitVec 16)
  | sealed
  | railLoss (rail : RailId)
  | blockWrite (byte0 : BitVec 8) (data : List Byte) (pecOk : Bool)
  | blockRead
  | readByte
  | setdasa (addr : BitVec 7)
  | entdaa (addr : BitVec 7)
  | bypass
  | idcode
  | samplePreload (value : List Bool)
  | extest
  | extestPulse
  | extestTrain
  | clamp
  | highz
  | controlComplexLoss (t : TuberId) (now : Nat)
  | regionClockOrDroopFailure (r : RegionId) (now : Nat)
  | bondSelfTest (noSpareTiles : List TileId) (noSpareDies : List DieId)
  | bridgeTest (spareLeft : Bool)
  | poisonedReply (id join : Nat) (isBridge : Bool)
  | wayGroupAvailable (t : TuberId) (g : Fin 4)
  | creditStall (p : PortId)
  | llcLatUpdate (sl : SliceId) (meanHit meanMiss maxMiss : Nat)
  | statusReply (fn : FnId) (sq : Nat) (gen : W32) (status : BitVec 16) (detail : W64)
  | railInRegulation
  | alertResponseAddress
  | trstN
deriving DecidableEq, Repr

end Sys2Proof
end

