-- ==== Sys2Proof/Decode.lean ====
section
/-! DEFINITION. Decode.lean: commands have no encoding: spec/opcode_table.json gives bits to no row, so no word spells a command. -/

namespace Sys2Proof

/-- The command a word spells by the bits of the table: none, since no row has bits. -/
def decodeTableWord (_nbits _w : Nat) : Option Instr := none

end Sys2Proof
end

