-- ==== Sys2Proof/Config.lean ====
section
/-! DEFINITION. Config.lean: what the spec leaves to an implementation or leaves open, as constants with no body
(nothing can evaluate them or prove a value of one). Each is named in the assumption log. -/

namespace Sys2Proof.Config

/-- The free 32-bit values, numbered by `State.freeCtr`: results the spec does not state (log 2). -/
opaque freeWord : Nat → W32
/-- The free bytes of one step, by the number of the step's free value and the place of the byte (log 2). -/
opaque freeByte : Nat → Nat → Byte
/-- The word COMPARE writes in a lane for a false and a true comparison (log 8). -/
opaque compareWord : Bool → W32

/-- Sort key of line `i` (0–255) of an aligned 64 KiB block in the fixed slice hash of R55 (log 6). The first argument
is the block with address bit 16 left out (R365). -/
opaque sliceKey : Nat → Nat → Nat
/-- Sort key of line `i` (0–4095) of an aligned 1 MiB block in the fixed pseudo-channel hash of R57; the first argument tells the
768-channel map (false) from the 736-channel map of R550 (true). -/
opaque channelKey : Bool → Nat → Nat → Nat
/-- Sort key that orders the pseudo-channels inside a 1 MiB block (R57: some receive 5, some 6 lines). -/
opaque channelOrder : Bool → Nat → Nat → Nat

/-- The row of a line inside its pseudo-channel, and the four lines of a row: the spec says only that they lie in different 1 MiB blocks
(R529, R547; log 11). -/
opaque rowOf : Nat → Nat
opaque rowLines : Nat → Nat → List Nat

/-- Which of the results inside the bound of R255 RCP (0) and RSQ (1) return for an input (log 7). -/
opaque sfuChoice : Nat → W32 → Nat
/-- What EXP2, LOG2, SIN and COS give for inputs for which R255 gives only a bound, where it lies within that bound (log 7). -/
opaque exp2 : W32 → W32
opaque log2 : W32 → W32
opaque sin : W32 → W32
opaque cos : W32 → W32

/-- Whether RSASSA-PSS verification of an object's bytes with the root key (`true`) or the owner key (`false`) succeeds (R770; keys are
not in the spec; log 9). -/
opaque signatureOk : Bool → List Byte → Bool
/-- The part's signature over a quote (R779) and its certificate chain (R778), as bytes (log 9). -/
opaque quoteSignature : List Byte → List Byte
opaque certificate : Nat → List Byte
/-- The digest of repair maps, of the running image, of the configuration and owner objects as GET_ATTEST shows them: the byte
serialisation that is hashed is not given (R779, log 9). -/
opaque attestDigest : Nat → Nat → List Byte
/-- SHA-256 of the repair maps in force (R779): the bytes that are hashed are not given (log 9). -/
opaque repairDigest : List Nat → List Byte
/-- Field number `n` of a configuration copy's contents, as found in its bytes: the layout past the header of R772 is not given (log 9). -/
opaque cfgField : Nat → List Byte → Nat
/-- SHA-256 of the bounds section of a configuration copy (R798), as found in its bytes (log 9). -/
opaque cfgBounds : List Byte → List Byte

end Sys2Proof.Config
end

