-- ==== Sys2Proof/Machine/State.lean ====
section
/-! DEFINITION. Machine/State.lean: everything the spec gives the part, as plain data, and the state right after package
reset. Registers of control space live in `State.ctl` under their own control-space offset; the structures below hold what no
register shows. Sparse tables are lists of (key, value) in one canonical form (Machine/Sparse.lean). -/

namespace Sys2Proof.Machine

/-- A sparse table: keys strictly rising, no entry equal to the table's default. -/
abbrev SMap (α : Type) := List (Nat × α)

/-- The machine stops with a fault. No meaning of this model raises one: an access the spec says does not exist is rejected by the
part itself with ADDR_RANGE (R14, R50, R60), which is a next state. -/
inductive Fault where
  /-- Raised by no meaning; it stands here so that the type has a value. Safe. -/
  | noStopDefined
deriving DecidableEq, Repr

/-- Reasons for which a command has no meaning. -/
inductive Refusal where
  /-- A row of the table that has no meaning yet; raised by its arm in Machine/Dispatch.lean only. Safe. -/
  | notModelled (mnemonic : String)
deriving DecidableEq, Repr

/-- What a marked register carries in place of data (R165, R392, R433, R598, R599): the fault taken when it is read. -/
inductive RegMark where
  | poison | deadRead | remoteDenied | remoteLost
deriving DecidableEq, Repr

/-- One path of a thread group: where it is, the threads on it, the split it will rejoin, and the yield-rotation count (R144–R150). -/
structure Path where
  pc    : Pc
  mask  : LaneMask
  split : Option Nat := none
  slots : Nat := 0
  back  : Bool := false
deriving DecidableEq, Repr

/-- A branch whose paths have not all rejoined: its reconvergence address, the threads that were split, those that wait there (R145). -/
structure Split where
  id       : Nat
  reconv   : Pc
  expected : LaneMask
  arrived  : LaneMask := 0
  parent   : Option Nat := none
deriving DecidableEq, Repr

/-- One lane's part of a load, atomic or reservation: which bytes, into which register. -/
structure LaneAcc where
  lane : Nat
  addr : Nat
  reg  : Nat
  val  : W64 := 0
  cmp  : W64 := 0
deriving DecidableEq, Repr

/-- What a release waits to do (R484): send a marked store, reduction, atomic or STCND, arrive at a barrier, complete a fence. -/
inductive RelOp where
  | fence (vd : Nat) (acquireAfter : Bool)
  | store (sb : List Nat)
  | atomic (ids : List Nat) (acquireAfter : Bool)
  | barrier
deriving DecidableEq, Repr

/-- A release in progress: its operation, the number below which store-buffer entries and requests are earlier than it, the address and
lanes of the marked instruction, whether writes it waited for were dropped (R504), and from which number its L1 write-backs have been sent. -/
structure RelWait where
  op    : RelOp
  since : Nat
  pc    : Pc
  mask  : LaneMask
  lost  : Bool := false
  wb    : Option Nat := none
deriving DecidableEq, Repr

/-- What a group waits for, when it is not ready (R140). -/
inductive Wait where
  | none
  | barrier
  | acquire
  | release (r : RelWait)
  | txCommit
  | counter (dir : CtrDir) (stream : Nat) (target : Nat)
deriving DecidableEq, Repr

/-- An open transaction of a group (R447–R456): abort target, TXBEGIN mask, register of the abort word, claimed lines (line, write,
acknowledged), buffered bytes, and an abort word the tile has learned but not yet delivered. -/
structure Tx where
  target : Pc
  mask   : LaneMask
  vd     : Nat
  split  : Option Nat := none
  firstId : Nat := 0
  lines  : List (Nat × Bool × Bool) := []
  buf    : List (Nat × Byte) := []
  notice : Option (Nat × Nat) := none
  commit : Bool := false
deriving DecidableEq, Repr

/-- A token record (R187, R188): issue generation and, once posted, the completion code; `soft` marks a code that no wait takes as a fault
(R227, R230). -/
structure Token where
  gen  : Nat
  code : Option Nat := none
  soft : Bool := false
deriving DecidableEq, Repr

/-- A resident thread group (R127). `regs` is keyed by 32 × register + lane and reads as zero where unlisted (R133). -/
structure Group where
  block    : Nat := 0
  index    : Nat := 0
  nReg     : Nat := 1
  live     : LaneMask := 0
  paths    : List Path := []
  cur      : Nat := 0
  splits   : List Split := []
  nextId   : Nat := 0
  regs     : SMap W32 := []
  marks    : SMap (RegMark × Nat) := []
  pend     : List (Nat × Nat) := []
  wait     : Wait := .none
  tokens   : SMap Token := []
  tokenGen : Nat := 0
  scFails  : Option (Nat × Nat) := none
  scWon    : Bool := false
  sid      : BitVec 12 := 0
  tx       : Option Tx := none
  tick     : W32 := 0
deriving DecidableEq, Repr

/-- A resident block (R128): index, local allocation, the groups that arrived at its barrier and the BBAR of the first (R156–R159, R179). -/
structure Block where
  used     : Bool := false
  index    : Nat := 0
  groups   : Nat := 1
  base     : Nat := 0
  size     : Nat := 0
  arrived  : List Nat := []
  firstPc  : Option Pc := none
  limit    : Nat := 0
deriving DecidableEq, Repr

/-- What a store-buffer entry asks of its sector (R168, R358, R430). -/
inductive SbKind where
  | store
  | red (op : AtomOp) (ty : AtomTy) (lanes : List LaneAcc)
  | discard
deriving DecidableEq, Repr

/-- A store-buffer entry: its sector, byte offsets with their data, where it stands, and the stream identifier of its group when it was made
(R496). -/
structure SbEntry where
  id     : Nat
  group  : Nat
  sector : Nat
  dev    : Option Nat := none
  kind   : SbKind := .store
  bytes  : List (Nat × Byte) := []
  marked : Bool := false
  ready  : Bool := true
  fin    : Bool := false
  sent   : Bool := false
  sid    : BitVec 12 := 0
deriving DecidableEq, Repr

/-- A line of L1 (R343): its line address, and for each of four sectors valid and dirty; data sits in `Tile.l1Data`. -/
structure L1Line where
  line  : Nat
  valid : BitVec 4 := 0
  dirty : BitVec 4 := 0
deriving DecidableEq, Repr

/-- A remote write accepted by a Bellith port and not yet acknowledged (R500): device, end-to-end number, store-buffer entry, group, SID. -/
structure Unacked where
  dev   : Nat
  seq   : Nat
  id    : Nat
  group : Nat
  sid   : BitVec 12
deriving DecidableEq, Repr

/-- Stages of a matrix operation (04). -/
inductive MmaStage where
  | issued | copied | translated | staged | running | done
deriving DecidableEq, Repr

/-- A matrix operation in flight: its issuer, the copied 128-byte descriptor (R192), stage, first failing code, the sector reads
outstanding for staging, and whether a map read of its stage 3 has been sent. -/
structure MmaOp where
  group  : Nat
  record : Nat
  gen    : Nat
  base   : Nat := 0
  desc   : List Byte := []
  stage  : MmaStage := .issued
  code   : Nat := 0
  toStage : List (Bool × Nat) := []
  mapReads : List (Bool × Nat) := []
  pages  : List (Bool × Nat × Nat) := []
  begun  : Bool := false
  poisonPaged : Bool := false
  poisonMem : Bool := false
  soft : Bool := false
deriving DecidableEq, Repr

/-- A held map sector of the page translation cache: map, first page index, the eight entries (R224). -/
structure PtcLine where
  map   : Nat
  first : Nat
  entries : List W64
deriving DecidableEq, Repr

/-- A stream descriptor of R295 with its flit index and counter. -/
structure Stream where
  base   : Nat := 0
  stride : Nat := 0
  count  : Nat := 0
  index  : Nat := 0
  counter : Nat := 0
deriving DecidableEq, Repr

/-- A weight-stream descriptor of R91. -/
structure WDesc where
  src      : Nat
  tile     : Nat
  ch       : Nat
  prefetch : Bool
  lines    : Nat
  dst      : Nat
  gate     : Nat
deriving DecidableEq, Repr

/-- A weight channel (R92): descriptors still to run, the active one, the lines written whole. -/
structure WeightCh where
  queue   : List WDesc := []
  active  : Option WDesc := none
  written : List Nat := []
deriving DecidableEq, Repr

/-- What a tile runs (R129, R177). -/
inductive Work where
  | idle | step | kernel (id : Nat)
deriving DecidableEq, Repr

/-- Sequence the tile is running (R362). -/
inductive TileSeq where
  | none | start | ending | save
deriving DecidableEq, Repr

/-- A tile: everything of 03, 04, 06 and 07 that no register holds. `testing`: its self-test runs; `repeated`: it met TILE_ECC before, within the window
of R752; `swapped`: it was mapped out while its test ran (R753). `arr` is the local array, `acc` accumulator memory by element
index, `l1` is keyed by 16 × set + way, `l1Data` by address. -/
structure Tile where
  work    : Work := .idle
  seq     : TileSeq := .none
  stopping : Bool := false
  faulted : Bool := false
  nextPos : Nat := 0
  blocks  : SMap Block := []
  groups  : SMap Group := []
  sb      : List SbEntry := []
  l1      : SMap L1Line := []
  l1Ptr   : SMap Nat := []
  l1Data  : SMap Byte := []
  arr     : SMap Byte := []
  acc     : SMap W32 := []
  ops     : List MmaOp := []
  ptc     : List PtcLine := []
  headers : List (Nat × W64) := []
  slotRec : List (Nat × Nat) := []
  streams : SMap Stream := []
  stagedStreams : SMap Stream := []
  openStreams : SMap Stream := []
  weights : SMap WeightCh := []
  ready   : Nat := 0
  readyOut : Bool := false
  consumer : Option (Nat × Nat) := none
  unacked : List Unacked := []
  inReset : Bool := false
  gated   : Bool := false
  gating  : Bool := false
  testing : Bool := false
  lastEcc : Option Nat := none
  repeated : Bool := false
  swapped : Bool := false
deriving DecidableEq, Repr

/-- A kernel of a LAUNCH (R664): its parameters, owner, and how far it has run. -/
structure Kernel where
  fn        : Nat
  p         : LaunchParams
  issue     : Issue
  blocksEnded : Nat := 0
  firstFault : Option (Nat × Nat) := none
  peerLost  : Bool := false
  denied    : Bool := false
  killed    : Bool := false
  podsEnded : PodMask := 0
  accepted : Nat := 0
  began    : Bool := false
deriving DecidableEq, Repr

/-- State of a mesh router (R324). -/
inductive RouterState where
  | idle | running | gate | ended | stopped | silent
deriving DecidableEq, Repr

/-- A mesh router (R283–R297): its two banks, the slot it runs and the cycles left of it, loop counters, mesh cycle since step start. -/
structure Router where
  bank    : List W64 := []
  staging : Option (List W64) := none
  which   : Bool := false
  state   : RouterState := .idle
  slot    : Nat := 0
  cur     : Option W64 := none
  left    : Nat := 0
  loops   : SMap (Bool × Nat) := []
  cycle   : Nat := 0
  dead    : Bool := false
deriving DecidableEq, Repr

/-- A flit on a mesh link (R282): where and when it arrives. Ports: 0 N, 1 E, 2 S, 3 W. -/
structure MeshFlit where
  dest   : Nat
  port   : Nat
  cycle  : Nat
  poison : Bool
  data   : BitVec 512
deriving DecidableEq, Repr

/-- States of a way (R368); sector bits 0–3 of a Line, 0–7 of a Pair (the partner's sectors are 4–7). -/
inductive WayKind where
  | invalid | line | pair | pinned | off
deriving DecidableEq, Repr

structure Way where
  kind  : WayKind := .invalid
  line  : Nat := 0
  win   : Nat := 0
  valid : BitVec 8 := 0
  dirty : BitVec 8 := 0
deriving DecidableEq, Repr

/-- A miss entry (R383–R386): the line, its reserved way, and waiting requests in join order. -/
structure MissEntry where
  line    : Nat
  set     : Nat
  way     : Nat
  win     : Nat
  waiters : List Nat := []
deriving DecidableEq, Repr

/-- A reduction pin (R435–R437). -/
structure Pin where
  line  : Nat
  set   : Nat
  way   : Nat
  queue : List Nat := []
deriving DecidableEq, Repr

/-- A reservation entry (R441), oldest first in its slice; `guarded` while replacement skips the line (R443). -/
structure Rsv where
  tile : Nat
  group : Nat
  line : Nat
  set  : Nat
  guarded : Bool := false
deriving DecidableEq, Repr

/-- A lease (R444). -/
structure Lease where
  tile : Nat
  group : Nat
  line : Nat
deriving DecidableEq, Repr

/-- A claim of an open transaction at its slice (R449–R452). ORIGIN 0 tile, 1 copy engine, 2 firmware (R462). -/
structure Claim where
  tile : Nat
  group : Nat
  line : Nat
  set  : Nat
  write : Bool
deriving DecidableEq, Repr

/-- A cache slice (08, 09): ways keyed by 16 × set + way, round-robin pointers by set (default 15, R380). -/
structure Slice where
  ways    : SMap Way := []
  ptr     : SMap Nat := []
  entries : List MissEntry := []
  pins    : List Pin := []
  rsvs    : List Rsv := []
  leases  : List Lease := []
  qualified : List (Nat × Nat × Nat) := []
  claims  : List Claim := []
  waitWay : List Nat := []
  waitEntry : List Nat := []
  waitPin : List Nat := []
deriving DecidableEq, Repr

/-- Kinds of request on the tuber network (R427–R451). -/
inductive ReqKind where
  | load (size : Nat) (sx : Bool) (keep : Bool)
  | store (bytes : List (Nat × Byte))
  | atomic (op : AtomOp) (ty : AtomTy) (cas : Bool) (returns : Bool)
  | ldrsv (wide holds : Bool)
  | stcnd (wide : Bool)
  | discard
  | hint
  | claim (write : Bool)
deriving DecidableEq, Repr

/-- Where a request stands; `held` is the marked operation of a release that has not been sent (R484). -/
inductive ReqState where
  | held | sent | waiting | performed
deriving DecidableEq, Repr

/-- A request in flight from a tile (R429, R477): issuer, store-buffer entry it drains (if any), sector, the lanes' parts, and once
performed the lane values or the sector's data and mark. `beyond` holds bytes the issuer merges over the data (R449). -/
structure Req where
  id     : Nat
  tile   : Nat
  group  : Nat
  kind   : ReqKind
  sector : Nat
  dev    : Option Nat := none
  lanes  : List LaneAcc := []
  oid    : Nat := 16
  cached : Bool := false
  sb     : Option Nat := none
  state  : ReqState := .sent
  acq    : Bool := false
  data   : List Byte := []
  vals   : List (Nat × W64) := []
  beyond   : List (Nat × Byte) := []
  mark   : Option RegMark := none
  seq    : Nat := 0
  sentAt : Nat := 0
deriving DecidableEq, Repr

/-- A step image (R88): where it lies and its header fields. -/
structure Image where
  addr     : Nat
  len      : Nat
  id       : Nat
  keep     : Bool
  pods     : PodMask
  schedSlots : Nat
  hintCount : Nat
  sections : List (Nat × Nat)
deriving DecidableEq, Repr

/-- Phases of a tick period (02). -/
inductive Phase where
  | step | opened | guard
deriving DecidableEq, Repr

/-- What a clean or power-up in progress is for (R401–R409, R757, R833): lost ways (a mask) of a window modified, a window destroyed, a new lock count,
a way group of a tuber going down or coming up, a slice that will be remapped. -/
inductive CleanKind where
  | modify (w lost : Nat)
  | destroy (w : Nat)
  | lock (l : Nat)
  | powerDown (tuber group : Nat)
  | powerUp (tuber group : Nat)
  | remap (sl : Nat)
deriving DecidableEq, Repr

/-- A clean in progress, named by its token, and the command that waits for it. -/
structure Clean where
  token : Nat
  kind  : CleanKind
  issue : Option Issue
deriving DecidableEq, Repr

/-- A submission queue (R628–R634, R645, R656): `rereads` issued and `misses` returned without a match for the slot it waits for. -/
structure SubQ where
  state    : Nat := 0
  cause    : Nat := 0
  accepted : Nat := 0
  expect   : Nat := 1
  doorbell : Nat := 0
  base     : Nat := 0
  log2     : Nat := 0
  slotLog2 : Nat := 0
  vector   : Nat := 0
  cq       : Nat := 0
  rereads  : Nat := 0
  misses   : Nat := 0
  retrying : Bool := false
deriving DecidableEq, Repr

/-- A completion queue (R651–R653, R826). -/
structure CompQ where
  exists_  : Bool := false
  base     : Nat := 0
  log2     : Nat := 0
  vector   : Nat := 0
  events   : Bool := false
  written  : Nat := 0
  consumed : Nat := 0
  reserved : Nat := 0
deriving DecidableEq, Repr

/-- An accepted submission record (R630): the header fields and inline parameters; `bad` when its header breaks R648, `lost` when the host did not answer
the read of its parameters (R633). -/
structure CmdRec where
  fn     : Nat
  q      : Nat
  gen    : W32
  op     : BitVec 16
  tag    : W32
  ordered : Bool
  notify : Bool
  remote : Option Nat
  params : List Byte
  silent : Bool := false
  bad    : Bool := false
  lost   : Bool := false
  at_    : Nat := 0
deriving DecidableEq, Repr

/-- A status reply or event (R650). -/
structure Reply where
  op     : BitVec 16 := 0
  fn     : Nat
  sq     : Nat
  tag    : W32
  gen    : W32
  status : BitVec 16
  event  : Bool
  detail : W64
  time   : Nat
deriving DecidableEq, Repr

/-- A forward that waits for its reply (R665–R667). -/
structure Fwd where
  id    : Nat
  dev   : Nat
  issue : Issue
deriving DecidableEq, Repr

/-- What the part sends out: host writes, MSI-X, replies on the management port and the control lanes, tick messages, link control. -/
inductive Out where
  | reply (r : Reply) (cq : Option Nat) (index : Nat) (phase : Bool)
  | output (fn : Nat) (data : List Byte)
  | msix (fn vector : Nat)
  | hostRead (fn : Nat) (what : Nat)
  | readData (value : Option W64)
  | barData (data : List Byte)
  | sync (time : Nat)
  | announce (tick boundary : Nat) (ctl : W64)
  | stepStatus (rep : StepReport) (faulted replay : Nat)
  | verdict (v : Verdict) (overrun : Bool)
  | hello (h : Hello)
  | member (mask : W64)
  | routeLost (d : Nat)
  | forward (dev id op : Nat) (cls : CmdClass) (fn : Nat)
  | forwardReply (dev id : Nat) (status : BitVec 16) (detail : W64)
  | remoteReq (dev seq : Nat) (addr : Nat) (key : RemoteKey) (kind : SbKind) (bytes : List (Nat × Byte)) (final : Option Nat)
  | remoteRead (dev seq addr : Nat) (key : RemoteKey) (kind : ReqKind) (lanes : List LaneAcc)
  | ackMsg (dev seq : Nat) (denied : Bool)
  | rdataMsg (dev seq : Nat) (data : List Byte) (poison dead : List Bool) (denied : Bool)
  | flit (port seq : Nat)
  | nak (port ackSeq : Nat)
  | mgmtByte (b : BitVec 8)
  | mgmtFragment (data : List Byte)
  | mgmtAlert
  | mgmtAddress (a : BitVec 7)
  | coreData (ctx : Nat) (data : Option (List Byte))
  | jtag (value : W32)
deriving DecidableEq, Repr

/-- A FINAL write a receiver holds (R497, R601): its key, how many writes of the key must be performed first, the write. -/
structure HeldFinal where
  key    : RemoteKey
  port   : Nat
  count  : Nat
  seq    : Nat
  addr   : Nat
  len    : Nat
  write  : RemoteWrite
deriving DecidableEq, Repr

/-- The end-to-end state of a peer (R589): the lowest number not yet performed, performed numbers above it. -/
structure PeerSeq where
  low  : Nat := 0
  done : List Nat := []
deriving DecidableEq, Repr

/-- A Bellith port's link layer (R567–R581). `quar` marks quarantined lanes; `replay` the sequence numbers not yet acknowledged. -/
structure Port where
  quar     : BitVec 8 := 0
  nextSeq  : Nat := 0
  expect   : Nat := 0
  replay   : List Nat := []
  resends  : Nat := 0
  discarding : Bool := false
  credits  : Nat := 0
  fails    : Nat := 0
  retrains : List Nat := []
  low      : SMap Nat := []
deriving DecidableEq, Repr

/-- A pod's open-phase occupation (R684, R685): kernel, when it last started, how far it has been charged. -/
structure PodRun where
  kernel  : Option Nat := none
  since   : Nat := 0
  charged : Nat := 0
  saveFrom : Nat := 0
deriving DecidableEq, Repr

/-- A kernel saved on a pod (R687, R688): its save slot, when the save ended, and the saved tiles. -/
structure SavedPod where
  pod    : Nat
  fn     : Nat
  kernel : Nat
  slot   : Nat
  at_    : Nat
  tiles  : List (Nat × Tile)
deriving DecidableEq, Repr

/-- A region's loops (R711–R725, R734, R756): the FREQ code the package loop and the thermal loop allow, bar from boost and its end, the times of
recent droop trips, a droop stretch in force, T_CRIT action in force, a sensor within 10 °C of T_HOT, bar until the next start, since when cool. -/
structure Region where
  pkg      : Nat := 11
  therm    : Nat := 15
  barred   : Bool := false
  barEnd   : Nat := 0
  trips    : List Nat := []
  droop    : Bool := false
  crit     : Bool := false
  warm     : Bool := false
  noBoost  : Bool := false
  coolSince : Option Nat := none
deriving DecidableEq, Repr

/-- A rail's fast throttle (R724, R725): in force, with cycle stretching, since when over its limit, since when below 90 % of it. -/
structure RailThr where
  on       : Bool := false
  stretch  : Bool := false
  beyond     : Option Nat := none
  low      : Option Nat := none
deriving DecidableEq, Repr

/-- A block repair in progress (R539, R542): its block, window, the time of the first error, the functions to tell, the source it reads and since when;
`idle` while it waits to try again. -/
structure BlockRepair where
  block  : Nat
  win    : Nat
  t0     : Nat
  fns    : List Nat := []
  src    : Nat := 0
  since  : Nat := 0
  idle   : Bool := false
deriving DecidableEq, Repr

/-- Contents of a configuration copy (R773, R790): what the spec says comes from configuration. An opcode not listed in `opc` admits the classes R661
gives it, a rail not listed in `rails` has the largest ceiling of R794, `curve` is by FREQ code; digests are those of R779 and R798, empty where the
object was not written through the part. -/
structure CfgCopy where
  valid    : Bool := true
  version  : Nat := 1
  devId    : Nat := 0
  domainId : Nat := 1
  topology : Nat := 0
  master   : W64 := 0
  ingestSel : Nat := 0
  modes    : SMap Nat := []
  minFw    : Nat := 0
  limitW   : Nat := 3900
  vcdMv    : Nat := 900
  slackFloor : Nat := 0
  tHot     : Nat := 100
  tCrit    : Nat := 110
  ports    : BitVec 18 := 0x3FFFF
  tileRead : BitVec 13 := 0
  tileWrite : BitVec 13 := 0
  wdogMs   : Nat := 50
  fwWins   : List (W64 × W64) := []
  ingestWins : List (W64 × W64) := []
  opc      : List (Nat × Nat) := []
  rails    : List (Nat × Nat) := []
  curve    : SMap Nat := []
  digest   : List Byte := []
  boundsDigest : List Byte := []
deriving DecidableEq, Repr

/-- Serial memory (R771): which objects verify, their versions, and the repair records (R750). It survives package reset. -/
structure Serial where
  headerOk  : Bool := true
  ownerOk   : Bool := true
  cfgA      : CfgCopy := {}
  cfgB      : CfgCopy := { version := 0 }
  fwOk      : Bool := true
  fwVersion : Nat := 1
  fwDigest  : List Byte := []
  ownerDigest : List Byte := []
  identityOk : Bool := true
  packageSerial : List Byte := []
  bypass    : SMap Nat := []
  sliceMap  : SMap Nat := []
  retiredPods : PodMask := 0
  retiredDies : BitVec 12 := 0
  deadRouters : List Nat := []
  lostStack : Option Nat := none
  rows      : List (Nat × Nat) := []
  joins     : List (Nat × Nat) := []
  trims     : SMap Nat := []
  fatal     : List (W64 × W64 × W64 × W64) := []
  actions   : List (W64 × W64 × W64 × W64) := []
deriving DecidableEq, Repr

/-- A repair that waits for a boundary R312 admits (R31, R311, R757, R760), with the command that waits for it. -/
inductive PendingRepair where
  | bypass (die row o tile : Nat) (issue : Option Issue)
  | slice (s target : Nat) (issue : Option Issue)
  | pod (p : Nat) (issue : Option Issue)
  | region (r : Nat) (issue : Option Issue)
  | die (d : Nat) (issue : Option Issue)
deriving DecidableEq, Repr

/-- JTAG instructions (R816). -/
inductive JtagInstr where
  | bypass | idcode | sample | extest | extestPulse | extestTrain | clamp | highz
deriving DecidableEq, Repr

/-- TICK_CTL values announced for a tick (R79, R118): its number, its boundary time, the values, and whether a write set them. -/
structure Plan where
  tick     : Nat
  boundary : Nat
  ctl      : W64
  written  : Bool
deriving DecidableEq, Repr

/-- Tick logic (02). Times are in tenths of a nanosecond. `boundary` is the next boundary, `lastStatus` what this device reported at the last guard
start, `haltReq` and `resumeReq` what STEP_HALT and STEP_RESUME asked for the next boundary. -/
structure Tick where
  boundary  : Nat := 200000000
  verdictIn : Option (Verdict × Bool) := none
  statuses  : List (Nat × StepReport × Nat × Nat) := []
  ctlHeld   : Option W64 := none
  plans     : List Plan := []
  announced : Bool := false
  lastSync  : Nat := 0
  syncSent  : Nat := 0
  master    : Nat := 0
  haltReq   : Bool := false
  resumeReq : Bool := false
  phase     : Phase := .opened
  lastStatus : StepReport := .complete
deriving DecidableEq, Repr

/-- The step (02): the active and the staged image, a STEP_ACTIVATE that waits for its boundary; an attempt under way (`running`), its streams
started, complete, stopped by a step-level fault; the boundary it began at, whether a pod of it was still saving then, its streams' start; the slots
it runs with their functions, the page of a slot's code; gates opened and left; hints of the image; tiles that run a stream, and those whose part is
done. -/
structure Step where
  active    : Option Image := none
  staged    : Option Image := none
  activate  : Option Issue := none
  halted    : Bool := false
  running   : Bool := false
  started   : Bool := false
  complete  : Bool := false
  faulted   : Bool := false
  bound     : Nat := 0
  late      : Bool := false
  startAt   : Nat := 0
  runs      : List Nat := []
  vfs       : SMap Nat := []
  slotPages : SMap Nat := []
  gates     : Nat := 0
  gatesLeft : Nat := 0
  opening   : Bool := false
  hints     : List W64 := []
  streams   : List Nat := []
  done      : List Nat := []
deriving DecidableEq, Repr

/-- Domain membership and remote traffic (13). -/
structure Domain where
  reports   : List (Nat × Nat) := []
  hellos    : List Nat := []
  peers     : SMap PeerSeq := []
  nextSeq   : SMap Nat := []
  sentKeys  : List (RemoteKey × Nat × Nat) := []
  recvKeys  : List (RemoteKey × List Nat) := []
  finals    : List HeldFinal := []
  declared  : List Nat := []
deriving DecidableEq, Repr

/-- Host coupling and the command processor (14, 15). `pages` holds words of doorbell pages, mailboxes and MSI-X tables (Machine/HostPort.lean);
`numVf` is the number of VFs the host enables when it attaches, `openStop` that open-phase work is no longer dispatched while detached (R637). -/
structure Host' where
  sqs      : SMap SubQ := []
  cqs      : SMap CompQ := []
  pages    : SMap W64 := []
  numVf    : Nat := 63
  accepted : List CmdRec := []
  started  : List CmdRec := []
  held     : List Reply := []
  heldDropped : Nat := 0
  evCount  : SMap Nat := []
  evDropped : SMap Nat := []
  detachTick : Nat := 0
  attachTick : Nat := 0
  openStop : Bool := false
  downAt   : Nat := 0
  fwds     : List Fwd := []
  nextFwd  : Nat := 0
deriving DecidableEq, Repr

/-- A command that completes once kernels have ended (R680, R681): POD_ASSIGN, or VF_DESTROY with the function and its DEAD_WINDOWS flag. -/
structure KernelWait where
  issue   : Issue
  kernels : List Nat
  destroy : Option (Nat × Bool) := none
deriving DecidableEq, Repr

/-- Kernels and the open-phase scheduler (16). -/
structure Sched where
  waits    : List KernelWait := []
  kernels  : SMap (Option Kernel) := []
  nextKernel : Nat := 1
  order    : List Nat := []
  pods     : SMap PodRun := []
  saved    : List SavedPod := []
  frac     : SMap Nat := []
deriving DecidableEq, Repr

/-- Power and thermal control (17): loops of the regions, fast throttles, voltages the regulators report (nominal 780 mV), the part's voltage
curve by FREQ code where it is not the nominal one, operating points latched from PD_OPP and from the image, the open-phase hints in force and to
come, the hint in force on each pod, a mode that waits for its boundary, the issue cap of the package loop. -/
structure Power where
  regions  : SMap Region := []
  rails    : SMap RailThr := []
  railMv   : SMap Nat := []
  curve    : SMap Nat := []
  podOpp   : SMap Nat := []
  tileOpp  : SMap Nat := []
  hints    : List W64 := []
  hintsNext : Option (List W64) := none
  raises   : SMap Nat := []
  modeNext : Option (Nat × Bool) := none
  caps     : Nat := 16
deriving DecidableEq, Repr

/-- HBM subsystem (12): training progress of the stacks, remapped and copying rows, block repairs open and waiting, blocks whose repair failed (window,
block, sectors rewritten since), the lost stack, an evacuation, 1 MiB blocks moved so far, the 552 GiB map in force, corrected errors by row and
time, sectors with a POISON mark in HBM whose data a slice still holds good. -/
structure Hbm where
  train    : SMap Nat := []
  remap    : List (Nat × Nat) := []
  copying  : List (Nat × Nat) := []
  repairs  : List BlockRepair := []
  waiting  : List (Nat × Nat × Nat) := []
  failed   : List (Nat × Nat × W64) := []
  lost     : Option Nat := none
  evac     : Option (Nat × Issue) := none
  moved    : List Nat := []
  map736   : Bool := false
  ueTimes  : List (Nat × Nat × Nat) := []
  marks    : List Nat := []
deriving DecidableEq, Repr

/-- Repair state in force (18): dead routers, joins (unit kind, number) marked for re-selection, the trim each region starts with next, self-tests that
a REPAIR waits for, entries due for the repair records. -/
structure Repair where
  bypass   : SMap Nat := []
  pending  : List PendingRepair := []
  sliceMap : SMap Nat := []
  retiredPods : PodMask := 0
  retiredDies : BitVec 12 := 0
  deadRouters : List Nat := []
  joins    : List (Nat × Nat) := []
  trims    : SMap Nat := []
  tests    : List (Nat × Issue) := []
  fwIssue  : Option Issue := none
  fwOld    : Bool := false
  fwNewVersion : Nat := 0
  fwSince  : Nat := 0
  due      : List (W64 × W64 × W64 × W64) := []
deriving DecidableEq, Repr

/-- Boot and firmware (19): the configuration chosen at the last start, the Recovery and update buffers, and the firmware watchdog. -/
structure Boot where
  cfg      : CfgCopy := {}
  romBuf   : SMap Byte := []
  romTop   : Nat := 0
  updBuf   : SMap Byte := []
  slotIssue : Option Issue := none
  fwDigest : List Byte := []
  kicks    : SMap Nat := []
  restarts : List Nat := []
deriving DecidableEq, Repr

/-- The management port (R810–R815; `i3c` and `addr` as sampled at the release of POR_N) and the output pins (R819; open-drain outputs: `true` is released). -/
structure Mgmt where
  i3c      : Bool := false
  addr     : BitVec 2 := 0
  alive    : Bool := false
  thermAlertN : Bool := true
  thermTripN : Bool := true
  mgAlertN : Bool := true
  dynAddr  : Option (BitVec 7) := none
  rx       : List Byte := []
  rxOpen   : Bool := false
  rxSeq    : Nat := 0
  busy     : Bool := false
  replyReady : Bool := false
  error    : Bool := false
  reply    : List Byte := []
  replySeq : Nat := 0
deriving DecidableEq, Repr

/-- POR_N, whether the rails of R820 are in regulation, whether package reset is in force (R819, R820), and the JTAG test access port (R816–R818). -/
structure Pins where
  porN     : Bool := true
  railsOk  : Bool := true
  inReset  : Bool := false
  jtag     : JtagInstr := .idcode
  boundary : List Bool := []
deriving DecidableEq, Repr

/-- Reset values that differ from one element of an array to the next: PWR_RAIL word 0, LIMIT_DA [43:32], by rail, in 0.1 A (R703): VCD0–11,
VTB0–3, then VDD, VDDQ and VPP of each tuber, SerDes of each tuber, VIO. -/
def resetRails : List Nat :=
  List.replicate 12 3000 ++ List.replicate 4 1600 ++ [600, 1500, 80, 600, 1500, 80, 600, 1500, 80, 600, 1500, 80] ++
  List.replicate 4 600 ++ [20]

/-- The opcodes of R661, in its order; entry i of HUSK_OPC shows opcode i (R799). -/
def opCodes : List Nat :=
  [0x0001, 0x0002, 0x0003, 0x0004, 0x0005, 0x0101, 0x0102, 0x0103, 0x0104, 0x0105, 0x0106, 0x0107, 0x0201, 0x0202, 0x0203, 0x0204, 0x0205, 0x0206, 0x0207, 0x0208, 0x0209, 0x020A, 0x020B,
   0x0301, 0x0302, 0x0303, 0x0304, 0x0305, 0x0306, 0x0307, 0x0401, 0x0402, 0x0403, 0x0501, 0x0502, 0x0503, 0x0601, 0x0602, 0x0603, 0x0701, 0x0801, 0x0802, 0x0803, 0x0804, 0x0805]

/-- The registers whose reset value is not the one of their `Reg`. -/
def resetCtl : SMap W64 :=
  ((List.range 45).map fun i => (0x20400 + 8 * i, BitVec.ofNat 64 (opCodes.getD i 0))) ++
  (List.range 33).map fun r => (0x30100 + 16 * r, BitVec.ofNat 64 (resetRails.getD r 0 * 2 ^ 32))

/-- Everything in the package that a package reset returns to its reset value. -/
structure Part where
  /-- domain time, tenths of a nanosecond -/
  now     : Nat := 0
  /-- number of the next free value (the model's own field) -/
  freeCtr : Nat := 0
  /-- registers of control space, by `Reg.key` -/
  ctl     : SMap W64 := resetCtl
  tick    : Tick := {}
  step    : Step := {}
  tiles   : SMap Tile := []
  routers : SMap Router := []
  flits   : List MeshFlit := []
  slices  : SMap Slice := []
  /-- contents of HBM and of the pinned buffer -/
  mem     : List Host.Cell := []
  /-- contents of the dirty sectors the slices hold -/
  dirty   : List (Nat × Byte) := []
  /-- poisoned sectors (by sector address) and dead lines (by line address) -/
  poison  : List Nat := []
  dead    : List Nat := []
  closing : List Nat := []
  cleans  : List Clean := []
  nextId  : Nat := 0
  net     : List Req := []
  hbm     : Hbm := {}
  ports   : SMap Port := []
  domain  : Domain := {}
  host    : Host' := {}
  sched   : Sched := {}
  power   : Power := {}
  repair  : Repair := {}
  boot    : Boot := {}
  mgmt    : Mgmt := {}
  out     : List Out := []
deriving DecidableEq, Repr

/-- The machine: the commands that wait (first in, first out), the part, the serial memory, which keeps its contents through a
package reset (R771), and the pins and test access port, which have their own resets (R816, R819). -/
structure State where
  pending : List Instr := []
  part    : Part := {}
  serial  : Serial := {}
  pins    : Pins := {}
deriving DecidableEq, Repr

/-- The part right after package reset (R819): every field at the value its declaration above gives; registers at their reset values
(an unlisted register reads as its reset value), no memory listed, no command waiting. -/
def State.reset : State := {}

end Sys2Proof.Machine
end

