-- ==== Sys2Proof/Machine/Bits.lean ====
section
/-! DEFINITION. Machine/Bits.lean: bit fields of words, little-endian bytes (R5), sign extension. -/

namespace Sys2Proof.Machine

/-- Field of width `n` at bit `lo`, as a number. -/
def getB (w : W64) (lo n : Nat) : Nat := (w.toNat >>> lo) % 2 ^ n

/-- `w` with the field of width `n` at bit `lo` replaced by the low `n` bits of `v`. -/
def setB (w : W64) (lo n v : Nat) : W64 :=
  (w &&& ~~~(BitVec.ofNat 64 (2 ^ n - 1) <<< lo)) ||| (BitVec.ofNat 64 (v % 2 ^ n) <<< lo)

/-- Field of width `n` at bit `lo` of a number. -/
def fld (v lo n : Nat) : Nat := (v >>> lo) % 2 ^ n

/-- The number whose little-endian bytes are `bs` (R5). -/
def leNat : List Byte → Nat
  | [] => 0
  | b :: bs => b.toNat + 256 * leNat bs

/-- The `n` little-endian bytes of `v` (R5). -/
def leBytes : Nat → Nat → List Byte
  | 0, _ => []
  | n + 1, v => BitVec.ofNat 8 v :: leBytes n (v / 256)

/-- The `n` bytes of `bs` from index `i`; bytes past the end read as zero. -/
def slice (bs : List Byte) (i n : Nat) : List Byte := (List.range n).map fun j => bs.getD (i + j) 0

/-- Little-endian field of `n` bytes at index `i` of a block of bytes. -/
def leAt (bs : List Byte) (i n : Nat) : Nat := leNat (slice bs i n)

/-- Low `n` bits of `v`, read as a two's-complement number. -/
def sint (n v : Nat) : Int :=
  if v % 2 ^ n < 2 ^ (n - 1) then ((v % 2 ^ n : Nat) : Int) else ((v % 2 ^ n : Nat) : Int) - ((2 ^ n : Nat) : Int)

/-- `x` as `n` two's-complement bits. -/
def toBits (n : Nat) (x : Int) : Nat := (x % ((2 ^ n : Nat) : Int)).toNat

/-- `v` with its low `n` bits sign-extended to 32 bits, or zero-extended. -/
def extend (sx : Bool) (n v : Nat) : W32 :=
  if sx then BitVec.ofInt 32 (sint n v) else BitVec.ofNat 32 (v % 2 ^ n)

def b2n (b : Bool) : Nat := if b then 1 else 0

end Sys2Proof.Machine
end

