-- ==== Sys2Proof/Machine/Regs.lean ====
section
/-! DEFINITION. Machine/Regs.lean: the registers of control space (R7, R8, R60, R61), transcribed from the register tables of the
spec: offset, fields with bit position, access type and reset value. Reset values that the spec takes from configuration, silicon or
self-test are 0 here (log 3). TL registers are indexed by LOGICAL tile here; the access operations translate the physical tile
identifier of the address (R62). -/

namespace Sys2Proof.Machine

/-- Access types of R8. -/
inductive Acc where
  | rw | ro | w1c | wo | rc
deriving DecidableEq, Repr

/-- A register: control-space offset of its first instance, instance spacing and count, array spacing and count, reset value. -/
structure Reg where
  base   : Nat
  inst   : Nat
  ninst  : Nat
  stride : Nat
  count  : Nat
  rst    : Nat
deriving DecidableEq, Repr

/-- A field of a register. -/
structure Fld where
  reg : Reg
  lo  : Nat
  wid : Nat
deriving DecidableEq, Repr

/-- Key of element `j` of instance `i` in `Part.ctl`. -/
def Reg.key (r : Reg) (i j : Nat) : Nat := r.base + i * r.inst + j * r.stride

/-- GLOBAL_PART (R64). -/
def reg_GLOBAL_PART : Reg := ⟨0x0, 0x10000, 1, 0x8, 1, 0x1224⟩
def GLOBAL_PART_PART : Fld := ⟨reg_GLOBAL_PART, 0, 32⟩
def GLOBAL_PART_REV_STEP : Fld := ⟨reg_GLOBAL_PART, 32, 4⟩
def GLOBAL_PART_REV_LETTER : Fld := ⟨reg_GLOBAL_PART, 36, 4⟩
/-- GLOBAL_DEV (R65). -/
def reg_GLOBAL_DEV : Reg := ⟨0x8, 0x10000, 1, 0x8, 1, 0x0⟩
def GLOBAL_DEV_DEV_ID : Fld := ⟨reg_GLOBAL_DEV, 0, 6⟩
def GLOBAL_DEV_DOMAIN_SIZE : Fld := ⟨reg_GLOBAL_DEV, 8, 7⟩
def GLOBAL_DEV_TICK_MASTER : Fld := ⟨reg_GLOBAL_DEV, 16, 1⟩
def GLOBAL_DEV_JOINED : Fld := ⟨reg_GLOBAL_DEV, 17, 1⟩
/-- GLOBAL_INV (R66). -/
def reg_GLOBAL_INV : Reg := ⟨0x10, 0x10000, 1, 0x8, 1, 0xC00⟩
def GLOBAL_INV_TILES_LIVE : Fld := ⟨reg_GLOBAL_INV, 0, 12⟩
def GLOBAL_INV_SPARES_FREE : Fld := ⟨reg_GLOBAL_INV, 12, 8⟩
def GLOBAL_INV_SLICES_EN : Fld := ⟨reg_GLOBAL_INV, 20, 9⟩
def GLOBAL_INV_STACKS_EN : Fld := ⟨reg_GLOBAL_INV, 32, 5⟩
def GLOBAL_INV_TUBERS_EN : Fld := ⟨reg_GLOBAL_INV, 40, 3⟩
/-- TICK_CTL (R120). -/
def reg_TICK_CTL : Reg := ⟨0x10000, 0x10000, 1, 0x8, 1, 0x21001404E20⟩
def TICK_CTL_PERIOD_US : Fld := ⟨reg_TICK_CTL, 0, 17⟩
def TICK_CTL_GUARD_US : Fld := ⟨reg_TICK_CTL, 20, 11⟩
def TICK_CTL_OVERRUN_POLICY : Fld := ⟨reg_TICK_CTL, 32, 1⟩
def TICK_CTL_STRETCH_MAX : Fld := ⟨reg_TICK_CTL, 36, 2⟩
def TICK_CTL_REPLAY_MAX : Fld := ⟨reg_TICK_CTL, 40, 4⟩
def TICK_CTL_OPEN_OVERLAP : Fld := ⟨reg_TICK_CTL, 44, 1⟩
/-- TICK_MASTER_CFG (R121). -/
def reg_TICK_MASTER_CFG : Reg := ⟨0x10008, 0x10000, 1, 0x8, 1, 0x0⟩
def TICK_MASTER_CFG_MASTER : Fld := ⟨reg_TICK_MASTER_CFG, 0, 6⟩
def TICK_MASTER_CFG_COUNT : Fld := ⟨reg_TICK_MASTER_CFG, 6, 3⟩
def TICK_MASTER_CFG_SUCC1 : Fld := ⟨reg_TICK_MASTER_CFG, 16, 6⟩
def TICK_MASTER_CFG_SUCC2 : Fld := ⟨reg_TICK_MASTER_CFG, 22, 6⟩
def TICK_MASTER_CFG_SUCC3 : Fld := ⟨reg_TICK_MASTER_CFG, 28, 6⟩
def TICK_MASTER_CFG_SUCC4 : Fld := ⟨reg_TICK_MASTER_CFG, 34, 6⟩
def TICK_MASTER_CFG_SUCC5 : Fld := ⟨reg_TICK_MASTER_CFG, 40, 6⟩
def TICK_MASTER_CFG_SUCC6 : Fld := ⟨reg_TICK_MASTER_CFG, 46, 6⟩
def TICK_MASTER_CFG_SUCC7 : Fld := ⟨reg_TICK_MASTER_CFG, 52, 6⟩
/-- TICK_STATUS (R122). -/
def reg_TICK_STATUS : Reg := ⟨0x10010, 0x10000, 1, 0x8, 1, 0x0⟩
def TICK_STATUS_SYNC_STATE : Fld := ⟨reg_TICK_STATUS, 0, 2⟩
def TICK_STATUS_ROLE : Fld := ⟨reg_TICK_STATUS, 2, 1⟩
def TICK_STATUS_STEP_STATE : Fld := ⟨reg_TICK_STATUS, 3, 3⟩
def TICK_STATUS_CTL_PENDING : Fld := ⟨reg_TICK_STATUS, 6, 1⟩
def TICK_STATUS_STRETCH_COUNT : Fld := ⟨reg_TICK_STATUS, 8, 2⟩
def TICK_STATUS_ABANDON_COUNT : Fld := ⟨reg_TICK_STATUS, 10, 4⟩
def TICK_STATUS_ALIGN : Fld := ⟨reg_TICK_STATUS, 16, 16⟩
/-- TICK_EVENTS (R123). -/
def reg_TICK_EVENTS : Reg := ⟨0x10018, 0x10000, 1, 0x8, 1, 0x0⟩
def TICK_EVENTS_OVERRUN : Fld := ⟨reg_TICK_EVENTS, 0, 1⟩
def TICK_EVENTS_STRETCHED : Fld := ⟨reg_TICK_EVENTS, 1, 1⟩
def TICK_EVENTS_ABANDONED : Fld := ⟨reg_TICK_EVENTS, 2, 1⟩
def TICK_EVENTS_HALTED : Fld := ⟨reg_TICK_EVENTS, 3, 1⟩
def TICK_EVENTS_START_LATE : Fld := ⟨reg_TICK_EVENTS, 4, 1⟩
def TICK_EVENTS_HOLDOVER : Fld := ⟨reg_TICK_EVENTS, 5, 1⟩
def TICK_EVENTS_MASTER_CHANGE : Fld := ⟨reg_TICK_EVENTS, 6, 1⟩
def TICK_EVENTS_CTL_APPLIED : Fld := ⟨reg_TICK_EVENTS, 7, 1⟩
def TICK_EVENTS_CTL_REJECT : Fld := ⟨reg_TICK_EVENTS, 8, 1⟩
def TICK_EVENTS_VERDICT_MISSING : Fld := ⟨reg_TICK_EVENTS, 9, 1⟩
def TICK_EVENTS_IMAGE_ACTIVATED : Fld := ⟨reg_TICK_EVENTS, 10, 1⟩
/-- TICK_NUMBER (R124). -/
def reg_TICK_NUMBER : Reg := ⟨0x10020, 0x10000, 1, 0x8, 1, 0x0⟩
def TICK_NUMBER_NUMBER : Fld := ⟨reg_TICK_NUMBER, 0, 64⟩
/-- TICK_TIME (R124). -/
def reg_TICK_TIME : Reg := ⟨0x10028, 0x10000, 1, 0x8, 1, 0x0⟩
def TICK_TIME_FRAC : Fld := ⟨reg_TICK_TIME, 0, 16⟩
def TICK_TIME_NS : Fld := ⟨reg_TICK_TIME, 16, 48⟩
/-- TICK_STEP (R125). -/
def reg_TICK_STEP : Reg := ⟨0x10030, 0x10000, 1, 0x8, 1, 0x0⟩
def TICK_STEP_LAST_STEP_US : Fld := ⟨reg_TICK_STEP, 0, 20⟩
def TICK_STEP_START_LAG_US : Fld := ⟨reg_TICK_STEP, 32, 8⟩
/-- TICK_COUNTS (R125). -/
def reg_TICK_COUNTS : Reg := ⟨0x10038, 0x10000, 1, 0x8, 1, 0x0⟩
def TICK_COUNTS_OVERRUNS : Fld := ⟨reg_TICK_COUNTS, 0, 16⟩
def TICK_COUNTS_ABANDONS : Fld := ⟨reg_TICK_COUNTS, 16, 16⟩
def TICK_COUNTS_SKIPPED : Fld := ⟨reg_TICK_COUNTS, 32, 16⟩
def TICK_COUNTS_HOLDS : Fld := ⟨reg_TICK_COUNTS, 48, 16⟩
/-- TICK_IMAGE (R126). -/
def reg_TICK_IMAGE : Reg := ⟨0x10040, 0x10000, 1, 0x8, 1, 0x0⟩
def TICK_IMAGE_ACTIVE_ID : Fld := ⟨reg_TICK_IMAGE, 0, 32⟩
def TICK_IMAGE_STAGED_ID : Fld := ⟨reg_TICK_IMAGE, 32, 32⟩
/-- TICK_SEQ (R126). -/
def reg_TICK_SEQ : Reg := ⟨0x10048, 0x10000, 1, 0x8, 1, 0x0⟩
def TICK_SEQ_BASE : Fld := ⟨reg_TICK_SEQ, 8, 40⟩
/-- TL_STATUS (R177). -/
def reg_TL_STATUS : Reg := ⟨0x1000000, 0x1000, 3072, 0x8, 1, 0x0⟩
def TL_STATUS_GROUPS : Fld := ⟨reg_TL_STATUS, 0, 5⟩
def TL_STATUS_BLOCKS : Fld := ⟨reg_TL_STATUS, 8, 4⟩
def TL_STATUS_GRANULES : Fld := ⟨reg_TL_STATUS, 16, 7⟩
def TL_STATUS_LOCAL_4K : Fld := ⟨reg_TL_STATUS, 24, 8⟩
def TL_STATUS_STATE : Fld := ⟨reg_TL_STATUS, 32, 3⟩
def TL_STATUS_SB_USED : Fld := ⟨reg_TL_STATUS, 36, 6⟩
/-- TL_FAULT (R178). -/
def reg_TL_FAULT : Reg := ⟨0x1000008, 0x1000, 3072, 0x8, 1, 0x0⟩
def TL_FAULT_CODE : Fld := ⟨reg_TL_FAULT, 0, 16⟩
def TL_FAULT_GROUP : Fld := ⟨reg_TL_FAULT, 16, 4⟩
def TL_FAULT_BLOCK : Fld := ⟨reg_TL_FAULT, 20, 3⟩
def TL_FAULT_BLOCK_FAULT : Fld := ⟨reg_TL_FAULT, 23, 1⟩
def TL_FAULT_LANES : Fld := ⟨reg_TL_FAULT, 24, 32⟩
def TL_FAULT_STEP : Fld := ⟨reg_TL_FAULT, 56, 1⟩
def TL_FAULT_VF : Fld := ⟨reg_TL_FAULT, 58, 6⟩
/-- TL_FAULT_PC (R179). -/
def reg_TL_FAULT_PC : Reg := ⟨0x1000010, 0x1000, 3072, 0x8, 1, 0x0⟩
def TL_FAULT_PC_PC : Fld := ⟨reg_TL_FAULT_PC, 0, 48⟩
def TL_FAULT_PC_MORE : Fld := ⟨reg_TL_FAULT_PC, 48, 1⟩
/-- TL_FAULT_ADDR (R179). -/
def reg_TL_FAULT_ADDR : Reg := ⟨0x1000018, 0x1000, 3072, 0x8, 1, 0x0⟩
def TL_FAULT_ADDR_ADDR : Fld := ⟨reg_TL_FAULT_ADDR, 0, 64⟩
/-- TL_BARRIER_TIMEOUT (R180). -/
def reg_TL_BARRIER_TIMEOUT : Reg := ⟨0x1000020, 0x1000, 3072, 0x8, 1, 0x1000000⟩
def TL_BARRIER_TIMEOUT_CYCLES : Fld := ⟨reg_TL_BARRIER_TIMEOUT, 0, 32⟩
/-- TL_RESET_STATUS (R181). -/
def reg_TL_RESET_STATUS : Reg := ⟨0x1000028, 0x1000, 3072, 0x8, 1, 0x0⟩
def TL_RESET_STATUS_LOST_STORES : Fld := ⟨reg_TL_RESET_STATUS, 0, 6⟩
def TL_RESET_STATUS_CAUSE : Fld := ⟨reg_TL_RESET_STATUS, 8, 2⟩
def TL_RESET_STATUS_RESETS : Fld := ⟨reg_TL_RESET_STATUS, 16, 16⟩
/-- TL_EVENTS (R182). -/
def reg_TL_EVENTS : Reg := ⟨0x1000030, 0x1000, 3072, 0x8, 1, 0x0⟩
def TL_EVENTS_FAULT : Fld := ⟨reg_TL_EVENTS, 0, 1⟩
def TL_EVENTS_RESET_DONE : Fld := ⟨reg_TL_EVENTS, 1, 1⟩
def TL_EVENTS_STORES_LOST : Fld := ⟨reg_TL_EVENTS, 2, 1⟩
def TL_EVENTS_DRAIN_LIMIT : Fld := ⟨reg_TL_EVENTS, 3, 1⟩
/-- TL_COUNTS (R183). -/
def reg_TL_COUNTS : Reg := ⟨0x1000038, 0x1000, 3072, 0x8, 1, 0x0⟩
def TL_COUNTS_ROTATIONS : Fld := ⟨reg_TL_COUNTS, 0, 32⟩
def TL_COUNTS_FAULTS : Fld := ⟨reg_TL_COUNTS, 32, 16⟩
/-- TL_ISSUE (R183). -/
def reg_TL_ISSUE : Reg := ⟨0x1000040, 0x1000, 3072, 0x8, 1, 0x0⟩
def TL_ISSUE_ISSUED : Fld := ⟨reg_TL_ISSUE, 0, 48⟩
/-- TL_SECTORS (R183). -/
def reg_TL_SECTORS : Reg := ⟨0x1000048, 0x1000, 3072, 0x8, 1, 0x0⟩
def TL_SECTORS_CYCLES : Fld := ⟨reg_TL_SECTORS, 0, 48⟩
/-- TL_MMA_STATUS (R243). -/
def reg_TL_MMA_STATUS : Reg := ⟨0x1000050, 0x1000, 3072, 0x8, 1, 0x0⟩
def TL_MMA_STATUS_INFLIGHT : Fld := ⟨reg_TL_MMA_STATUS, 0, 3⟩
def TL_MMA_STATUS_ARRAY_BUSY : Fld := ⟨reg_TL_MMA_STATUS, 3, 1⟩
def TL_MMA_STATUS_STAGING : Fld := ⟨reg_TL_MMA_STATUS, 8, 2⟩
def TL_MMA_STATUS_PTC_VALID : Fld := ⟨reg_TL_MMA_STATUS, 16, 6⟩
/-- TL_MMA_SLOTFAULT (R243). -/
def reg_TL_MMA_SLOTFAULT : Reg := ⟨0x1000058, 0x1000, 3072, 0x8, 1, 0x0⟩
def TL_MMA_SLOTFAULT_CODE : Fld := ⟨reg_TL_MMA_SLOTFAULT, 0, 16⟩
def TL_MMA_SLOTFAULT_SLOT : Fld := ⟨reg_TL_MMA_SLOTFAULT, 16, 12⟩
def TL_MMA_SLOTFAULT_VALID : Fld := ⟨reg_TL_MMA_SLOTFAULT, 31, 1⟩
def TL_MMA_SLOTFAULT_PAGE : Fld := ⟨reg_TL_MMA_SLOTFAULT, 32, 32⟩
/-- TL_MMA_COUNTS (R244). -/
def reg_TL_MMA_COUNTS : Reg := ⟨0x1000060, 0x1000, 3072, 0x8, 1, 0x0⟩
def TL_MMA_COUNTS_OPS : Fld := ⟨reg_TL_MMA_COUNTS, 0, 32⟩
def TL_MMA_COUNTS_SLOT_FAULTS : Fld := ⟨reg_TL_MMA_COUNTS, 32, 16⟩
def TL_MMA_COUNTS_SKIPPED : Fld := ⟨reg_TL_MMA_COUNTS, 48, 16⟩
/-- TL_MMA_WALK (R244). -/
def reg_TL_MMA_WALK : Reg := ⟨0x1000068, 0x1000, 3072, 0x8, 1, 0x0⟩
def TL_MMA_WALK_TRANSLATIONS : Fld := ⟨reg_TL_MMA_WALK, 0, 32⟩
def TL_MMA_WALK_PTC_MISSES : Fld := ⟨reg_TL_MMA_WALK, 32, 32⟩
/-- TL_MMA_ARRAY (R244). -/
def reg_TL_MMA_ARRAY : Reg := ⟨0x1000070, 0x1000, 3072, 0x8, 1, 0x0⟩
def TL_MMA_ARRAY_CYCLES : Fld := ⟨reg_TL_MMA_ARRAY, 0, 48⟩
/-- TL_ARITH (R276). -/
def reg_TL_ARITH : Reg := ⟨0x1000078, 0x1000, 3072, 0x8, 1, 0x0⟩
def TL_ARITH_TRUNC_CHUNKS : Fld := ⟨reg_TL_ARITH, 0, 32⟩
def TL_ARITH_SAT_CHUNKS : Fld := ⟨reg_TL_ARITH, 32, 16⟩
def TL_ARITH_NAN_CHUNKS : Fld := ⟨reg_TL_ARITH, 48, 16⟩
/-- TL_MESH_STATUS (R324). -/
def reg_TL_MESH_STATUS : Reg := ⟨0x1000080, 0x1000, 3072, 0x8, 1, 0x0⟩
def TL_MESH_STATUS_SLOT : Fld := ⟨reg_TL_MESH_STATUS, 0, 12⟩
def TL_MESH_STATUS_STATE : Fld := ⟨reg_TL_MESH_STATUS, 12, 3⟩
def TL_MESH_STATUS_GATES : Fld := ⟨reg_TL_MESH_STATUS, 16, 16⟩
def TL_MESH_STATUS_READY : Fld := ⟨reg_TL_MESH_STATUS, 32, 16⟩
def TL_MESH_STATUS_BANK : Fld := ⟨reg_TL_MESH_STATUS, 48, 1⟩
def TL_MESH_STATUS_STAGED : Fld := ⟨reg_TL_MESH_STATUS, 49, 1⟩
/-- TL_MESH_FAULT (R324). -/
def reg_TL_MESH_FAULT : Reg := ⟨0x1000088, 0x1000, 3072, 0x8, 1, 0x0⟩
def TL_MESH_FAULT_CODE : Fld := ⟨reg_TL_MESH_FAULT, 0, 16⟩
def TL_MESH_FAULT_SLOT : Fld := ⟨reg_TL_MESH_FAULT, 16, 12⟩
def TL_MESH_FAULT_PORT : Fld := ⟨reg_TL_MESH_FAULT, 28, 3⟩
def TL_MESH_FAULT_VALID : Fld := ⟨reg_TL_MESH_FAULT, 31, 1⟩
def TL_MESH_FAULT_STREAM : Fld := ⟨reg_TL_MESH_FAULT, 32, 3⟩
def TL_MESH_FAULT_CYCLE : Fld := ⟨reg_TL_MESH_FAULT, 40, 24⟩
/-- TL_MESH_COUNTS (R325). -/
def reg_TL_MESH_COUNTS : Reg := ⟨0x1000090, 0x1000, 3072, 0x8, 1, 0x0⟩
def TL_MESH_COUNTS_FLITS : Fld := ⟨reg_TL_MESH_COUNTS, 0, 32⟩
def TL_MESH_COUNTS_POISON : Fld := ⟨reg_TL_MESH_COUNTS, 32, 16⟩
def TL_MESH_COUNTS_SAT : Fld := ⟨reg_TL_MESH_COUNTS, 48, 16⟩
/-- TL_MESH_WAIT (R325). -/
def reg_TL_MESH_WAIT : Reg := ⟨0x1000098, 0x1000, 3072, 0x8, 1, 0x0⟩
def TL_MESH_WAIT_CYCLES : Fld := ⟨reg_TL_MESH_WAIT, 0, 48⟩
def TL_MESH_WAIT_SCHED_CE : Fld := ⟨reg_TL_MESH_WAIT, 48, 16⟩
/-- RGN_BYPASS (R326). -/
def reg_RGN_BYPASS : Reg := ⟨0x3000100, 0x1000, 48, 0x8, 1, 0x0⟩
def RGN_BYPASS_ROW0 : Fld := ⟨reg_RGN_BYPASS, 0, 5⟩
def RGN_BYPASS_ROW1 : Fld := ⟨reg_RGN_BYPASS, 5, 5⟩
def RGN_BYPASS_ROW2 : Fld := ⟨reg_RGN_BYPASS, 10, 5⟩
def RGN_BYPASS_ROW3 : Fld := ⟨reg_RGN_BYPASS, 15, 5⟩
def RGN_BYPASS_ROW4 : Fld := ⟨reg_RGN_BYPASS, 20, 5⟩
def RGN_BYPASS_ROW5 : Fld := ⟨reg_RGN_BYPASS, 25, 5⟩
def RGN_BYPASS_ROW6 : Fld := ⟨reg_RGN_BYPASS, 30, 5⟩
def RGN_BYPASS_ROW7 : Fld := ⟨reg_RGN_BYPASS, 35, 5⟩
/-- RGN_BYPASS_NEXT (R326). -/
def reg_RGN_BYPASS_NEXT : Reg := ⟨0x3000108, 0x1000, 48, 0x8, 1, 0x0⟩
def RGN_BYPASS_NEXT_ROW0 : Fld := ⟨reg_RGN_BYPASS_NEXT, 0, 5⟩
def RGN_BYPASS_NEXT_ROW1 : Fld := ⟨reg_RGN_BYPASS_NEXT, 5, 5⟩
def RGN_BYPASS_NEXT_ROW2 : Fld := ⟨reg_RGN_BYPASS_NEXT, 10, 5⟩
def RGN_BYPASS_NEXT_ROW3 : Fld := ⟨reg_RGN_BYPASS_NEXT, 15, 5⟩
def RGN_BYPASS_NEXT_ROW4 : Fld := ⟨reg_RGN_BYPASS_NEXT, 20, 5⟩
def RGN_BYPASS_NEXT_ROW5 : Fld := ⟨reg_RGN_BYPASS_NEXT, 25, 5⟩
def RGN_BYPASS_NEXT_ROW6 : Fld := ⟨reg_RGN_BYPASS_NEXT, 30, 5⟩
def RGN_BYPASS_NEXT_ROW7 : Fld := ⟨reg_RGN_BYPASS_NEXT, 35, 5⟩
def RGN_BYPASS_NEXT_PENDING : Fld := ⟨reg_RGN_BYPASS_NEXT, 40, 8⟩
/-- TL_ARRAY (R362). -/
def reg_TL_ARRAY : Reg := ⟨0x10000A0, 0x1000, 3072, 0x8, 1, 0x8000⟩
def TL_ARRAY_L1_SIZE : Fld := ⟨reg_TL_ARRAY, 0, 3⟩
def TL_ARRAY_SCRATCH_4K : Fld := ⟨reg_TL_ARRAY, 8, 8⟩
def TL_ARRAY_DIRTY : Fld := ⟨reg_TL_ARRAY, 16, 13⟩
def TL_ARRAY_SEQ : Fld := ⟨reg_TL_ARRAY, 32, 2⟩
/-- TL_L1_HITS (R363). -/
def reg_TL_L1_HITS : Reg := ⟨0x10000A8, 0x1000, 3072, 0x8, 1, 0x0⟩
def TL_L1_HITS_HITS : Fld := ⟨reg_TL_L1_HITS, 0, 32⟩
def TL_L1_HITS_MISSES : Fld := ⟨reg_TL_L1_HITS, 32, 32⟩
/-- TL_L1_WB (R363). -/
def reg_TL_L1_WB : Reg := ⟨0x10000B0, 0x1000, 3072, 0x8, 1, 0x0⟩
def TL_L1_WB_WRITEBACKS : Fld := ⟨reg_TL_L1_WB, 0, 32⟩
def TL_L1_WB_FORWARDS : Fld := ⟨reg_TL_L1_WB, 32, 16⟩
def TL_L1_WB_DISCARDS : Fld := ⟨reg_TL_L1_WB, 48, 16⟩
/-- TL_L1_ECC (R364). -/
def reg_TL_L1_ECC : Reg := ⟨0x10000B8, 0x1000, 3072, 0x8, 1, 0x0⟩
def TL_L1_ECC_CE : Fld := ⟨reg_TL_L1_ECC, 0, 16⟩
def TL_L1_ECC_UE_CLEAN : Fld := ⟨reg_TL_L1_ECC, 16, 16⟩
def TL_L1_ECC_LOST_DIRTY : Fld := ⟨reg_TL_L1_ECC, 32, 13⟩
/-- LLC_WIN_BASE (R419). -/
def reg_LLC_WIN_BASE : Reg := ⟨0x800800, 0x1000, 256, 0x20, 64, 0x0⟩
def LLC_WIN_BASE_BASE : Fld := ⟨reg_LLC_WIN_BASE, 0, 48⟩
def LLC_WIN_BASE_VALID : Fld := ⟨reg_LLC_WIN_BASE, 63, 1⟩
/-- LLC_WIN_SIZE (R419). -/
def reg_LLC_WIN_SIZE : Reg := ⟨0x800808, 0x1000, 256, 0x20, 64, 0x0⟩
def LLC_WIN_SIZE_SIZE_4K : Fld := ⟨reg_LLC_WIN_SIZE, 0, 36⟩
def LLC_WIN_SIZE_WAYS : Fld := ⟨reg_LLC_WIN_SIZE, 48, 16⟩
/-- LLC_WIN_ATTR (R420). -/
def reg_LLC_WIN_ATTR : Reg := ⟨0x800810, 0x1000, 256, 0x20, 64, 0x0⟩
def LLC_WIN_ATTR_TYPE : Fld := ⟨reg_LLC_WIN_ATTR, 0, 2⟩
def LLC_WIN_ATTR_CLASS : Fld := ⟨reg_LLC_WIN_ATTR, 2, 2⟩
def LLC_WIN_ATTR_CODEC : Fld := ⟨reg_LLC_WIN_ATTR, 4, 3⟩
def LLC_WIN_ATTR_STRICT : Fld := ⟨reg_LLC_WIN_ATTR, 7, 1⟩
def LLC_WIN_ATTR_SHARED_IMM : Fld := ⟨reg_LLC_WIN_ATTR, 8, 1⟩
def LLC_WIN_ATTR_KEEP : Fld := ⟨reg_LLC_WIN_ATTR, 9, 1⟩
def LLC_WIN_ATTR_INGEST : Fld := ⟨reg_LLC_WIN_ATTR, 10, 1⟩
def LLC_WIN_ATTR_DEGRADED : Fld := ⟨reg_LLC_WIN_ATTR, 11, 1⟩
/-- LLC_WIN_GRANT (R420). -/
def reg_LLC_WIN_GRANT : Reg := ⟨0x800818, 0x1000, 256, 0x20, 64, 0x0⟩
def LLC_WIN_GRANT_FN : Fld := ⟨reg_LLC_WIN_GRANT, 0, 64⟩
/-- LLC_STATUS (R421). -/
def reg_LLC_STATUS : Reg := ⟨0x800000, 0x1000, 256, 0x8, 1, 0xFFFF⟩
def LLC_STATUS_WAYS_POWERED : Fld := ⟨reg_LLC_STATUS, 0, 16⟩
def LLC_STATUS_WAYS_LOCKED : Fld := ⟨reg_LLC_STATUS, 16, 16⟩
def LLC_STATUS_MISS_BUSY : Fld := ⟨reg_LLC_STATUS, 32, 7⟩
def LLC_STATUS_STATE : Fld := ⟨reg_LLC_STATUS, 40, 2⟩
/-- LLC_EVENTS (R421). -/
def reg_LLC_EVENTS : Reg := ⟨0x800008, 0x1000, 256, 0x8, 1, 0x0⟩
def LLC_EVENTS_UE_CLEAN : Fld := ⟨reg_LLC_EVENTS, 0, 1⟩
def LLC_EVENTS_POISONED : Fld := ⟨reg_LLC_EVENTS, 1, 1⟩
def LLC_EVENTS_TAG_UE : Fld := ⟨reg_LLC_EVENTS, 2, 1⟩
def LLC_EVENTS_CLEAN_DONE : Fld := ⟨reg_LLC_EVENTS, 3, 1⟩
def LLC_EVENTS_DEAD_STRICT : Fld := ⟨reg_LLC_EVENTS, 4, 1⟩
def LLC_EVENTS_FILL_WAIT : Fld := ⟨reg_LLC_EVENTS, 5, 1⟩
/-- LLC_CAP (R422). -/
def reg_LLC_CAP : Reg := ⟨0x800010, 0x1000, 256, 0x8, 1, 0x0⟩
def LLC_CAP_LINES : Fld := ⟨reg_LLC_CAP, 0, 15⟩
def LLC_CAP_PAIRS : Fld := ⟨reg_LLC_CAP, 16, 15⟩
def LLC_CAP_EFF_KIB : Fld := ⟨reg_LLC_CAP, 32, 14⟩
/-- LLC_COUNTS (R422). -/
def reg_LLC_COUNTS : Reg := ⟨0x800018, 0x1000, 256, 0x8, 1, 0x0⟩
def LLC_COUNTS_HITS : Fld := ⟨reg_LLC_COUNTS, 0, 32⟩
def LLC_COUNTS_MISSES : Fld := ⟨reg_LLC_COUNTS, 32, 32⟩
/-- LLC_DEAD_READS (R423). -/
def reg_LLC_DEAD_READS : Reg := ⟨0x800020, 0x1000, 256, 0x8, 1, 0x0⟩
def LLC_DEAD_READS_COUNT : Fld := ⟨reg_LLC_DEAD_READS, 0, 32⟩
def LLC_DEAD_READS_STRICT : Fld := ⟨reg_LLC_DEAD_READS, 32, 16⟩
def LLC_DEAD_READS_DISCARDS : Fld := ⟨reg_LLC_DEAD_READS, 48, 16⟩
/-- LLC_PREFETCH (R423). -/
def reg_LLC_PREFETCH : Reg := ⟨0x800028, 0x1000, 256, 0x8, 1, 0x0⟩
def LLC_PREFETCH_HINTS : Fld := ⟨reg_LLC_PREFETCH, 0, 32⟩
def LLC_PREFETCH_FETCHED : Fld := ⟨reg_LLC_PREFETCH, 32, 16⟩
def LLC_PREFETCH_DROPPED : Fld := ⟨reg_LLC_PREFETCH, 48, 16⟩
/-- LLC_MERGE (R423). -/
def reg_LLC_MERGE : Reg := ⟨0x800030, 0x1000, 256, 0x8, 1, 0x0⟩
def LLC_MERGE_MERGED : Fld := ⟨reg_LLC_MERGE, 0, 32⟩
def LLC_MERGE_WAITER_FULL : Fld := ⟨reg_LLC_MERGE, 32, 16⟩
def LLC_MERGE_ENTRY_WAIT : Fld := ⟨reg_LLC_MERGE, 48, 16⟩
/-- LLC_LAT (R424). -/
def reg_LLC_LAT : Reg := ⟨0x800038, 0x1000, 256, 0x8, 1, 0x0⟩
def LLC_LAT_MEAN_HIT : Fld := ⟨reg_LLC_LAT, 0, 16⟩
def LLC_LAT_MEAN_MISS : Fld := ⟨reg_LLC_LAT, 16, 16⟩
def LLC_LAT_MAX_MISS : Fld := ⟨reg_LLC_LAT, 32, 16⟩
/-- LLC_ECC (R424). -/
def reg_LLC_ECC : Reg := ⟨0x800040, 0x1000, 256, 0x8, 1, 0x0⟩
def LLC_ECC_CE : Fld := ⟨reg_LLC_ECC, 0, 16⟩
def LLC_ECC_UE_CLEAN : Fld := ⟨reg_LLC_ECC, 16, 16⟩
def LLC_ECC_UE_DIRTY : Fld := ⟨reg_LLC_ECC, 32, 16⟩
def LLC_ECC_TAG_UE : Fld := ⟨reg_LLC_ECC, 48, 16⟩
/-- LLC_ATOM (R470). -/
def reg_LLC_ATOM : Reg := ⟨0x800048, 0x1000, 256, 0x8, 1, 0x0⟩
def LLC_ATOM_OPS : Fld := ⟨reg_LLC_ATOM, 0, 32⟩
def LLC_ATOM_PIN_WAITS : Fld := ⟨reg_LLC_ATOM, 32, 16⟩
def LLC_ATOM_POISON_SKIP : Fld := ⟨reg_LLC_ATOM, 48, 16⟩
/-- LLC_RSV (R470). -/
def reg_LLC_RSV : Reg := ⟨0x800050, 0x1000, 256, 0x8, 1, 0x0⟩
def LLC_RSV_LOADS : Fld := ⟨reg_LLC_RSV, 0, 21⟩
def LLC_RSV_SUCCESS : Fld := ⟨reg_LLC_RSV, 21, 21⟩
def LLC_RSV_FAIL : Fld := ⟨reg_LLC_RSV, 42, 21⟩
/-- LLC_TX (R471). -/
def reg_LLC_TX : Reg := ⟨0x800058, 0x1000, 256, 0x8, 1, 0x0⟩
def LLC_TX_COMMITS : Fld := ⟨reg_LLC_TX, 0, 32⟩
def LLC_TX_ABORTS : Fld := ⟨reg_LLC_TX, 32, 16⟩
def LLC_TX_OPEN : Fld := ⟨reg_LLC_TX, 48, 6⟩
def LLC_TX_LAST_ABORT : Fld := ⟨reg_LLC_TX, 56, 4⟩
/-- LLC_HELD (R471). -/
def reg_LLC_HELD : Reg := ⟨0x800060, 0x1000, 256, 0x8, 1, 0x0⟩
def LLC_HELD_PINS : Fld := ⟨reg_LLC_HELD, 0, 12⟩
def LLC_HELD_RSV : Fld := ⟨reg_LLC_HELD, 16, 9⟩
def LLC_HELD_TX_WAYS : Fld := ⟨reg_LLC_HELD, 32, 10⟩
/-- LLC_REVOKE (R471). -/
def reg_LLC_REVOKE : Reg := ⟨0x800068, 0x1000, 256, 0x8, 1, 0x0⟩
def LLC_REVOKE_COUNT : Fld := ⟨reg_LLC_REVOKE, 0, 16⟩
def LLC_REVOKE_LAST_SCOPE : Fld := ⟨reg_LLC_REVOKE, 16, 16⟩
def LLC_REVOKE_RELEASED : Fld := ⟨reg_LLC_REVOKE, 32, 32⟩
/-- TL_FENCE (R515). -/
def reg_TL_FENCE : Reg := ⟨0x10000C0, 0x1000, 3072, 0x8, 1, 0x0⟩
def TL_FENCE_PEER_LOST : Fld := ⟨reg_TL_FENCE, 0, 1⟩
def TL_FENCE_TIMEOUT : Fld := ⟨reg_TL_FENCE, 1, 1⟩
def TL_FENCE_PEER : Fld := ⟨reg_TL_FENCE, 8, 6⟩
def TL_FENCE_LOST_WRITES : Fld := ⟨reg_TL_FENCE, 16, 16⟩
def TL_FENCE_PENDING : Fld := ⟨reg_TL_FENCE, 32, 12⟩
/-- TL_ORDER (R516). -/
def reg_TL_ORDER : Reg := ⟨0x10000C8, 0x1000, 3072, 0x8, 1, 0x0⟩
def TL_ORDER_ACQUIRES : Fld := ⟨reg_TL_ORDER, 0, 24⟩
def TL_ORDER_RELEASES : Fld := ⟨reg_TL_ORDER, 24, 24⟩
def TL_ORDER_DEVFENCES : Fld := ⟨reg_TL_ORDER, 48, 16⟩
/-- TL_REL_WAIT (R516). -/
def reg_TL_REL_WAIT : Reg := ⟨0x10000D0, 0x1000, 3072, 0x8, 1, 0x0⟩
def TL_REL_WAIT_CYCLES : Fld := ⟨reg_TL_REL_WAIT, 0, 48⟩
/-- GLOBAL_FENCE_CFG (R517). -/
def reg_GLOBAL_FENCE_CFG : Reg := ⟨0x40, 0x10000, 1, 0x8, 1, 0x64⟩
def GLOBAL_FENCE_CFG_REMOTE_US : Fld := ⟨reg_GLOBAL_FENCE_CFG, 0, 14⟩
/-- GLOBAL_LOSTW_STATUS (R517). -/
def reg_GLOBAL_LOSTW_STATUS : Reg := ⟨0x48, 0x10000, 1, 0x8, 1, 0x0⟩
def GLOBAL_LOSTW_STATUS_NEXT : Fld := ⟨reg_GLOBAL_LOSTW_STATUS, 0, 6⟩
def GLOBAL_LOSTW_STATUS_ENTRIES : Fld := ⟨reg_GLOBAL_LOSTW_STATUS, 16, 16⟩
def GLOBAL_LOSTW_STATUS_WRAPPED : Fld := ⟨reg_GLOBAL_LOSTW_STATUS, 32, 1⟩
/-- GLOBAL_LOSTW0 (R518). -/
def reg_GLOBAL_LOSTW0 : Reg := ⟨0x200, 0x10000, 1, 0x10, 64, 0x0⟩
def GLOBAL_LOSTW0_PEER : Fld := ⟨reg_GLOBAL_LOSTW0, 0, 6⟩
def GLOBAL_LOSTW0_DIR : Fld := ⟨reg_GLOBAL_LOSTW0, 6, 1⟩
def GLOBAL_LOSTW0_ORIGIN : Fld := ⟨reg_GLOBAL_LOSTW0, 8, 3⟩
def GLOBAL_LOSTW0_UNIT : Fld := ⟨reg_GLOBAL_LOSTW0, 11, 12⟩
def GLOBAL_LOSTW0_FN : Fld := ⟨reg_GLOBAL_LOSTW0, 23, 6⟩
def GLOBAL_LOSTW0_STEP : Fld := ⟨reg_GLOBAL_LOSTW0, 29, 1⟩
def GLOBAL_LOSTW0_SID : Fld := ⟨reg_GLOBAL_LOSTW0, 32, 12⟩
def GLOBAL_LOSTW0_WRITES : Fld := ⟨reg_GLOBAL_LOSTW0, 48, 16⟩
/-- GLOBAL_LOSTW1 (R518). -/
def reg_GLOBAL_LOSTW1 : Reg := ⟨0x208, 0x10000, 1, 0x10, 64, 0x0⟩
def GLOBAL_LOSTW1_TICK : Fld := ⟨reg_GLOBAL_LOSTW1, 0, 48⟩
def GLOBAL_LOSTW1_VALID : Fld := ⟨reg_GLOBAL_LOSTW1, 63, 1⟩
/-- HBM_STATUS (R559). -/
def reg_HBM_STATUS : Reg := ⟨0x400000, 0x10000, 24, 0x8, 1, 0x0⟩
def HBM_STATUS_STATE : Fld := ⟨reg_HBM_STATUS, 0, 3⟩
def HBM_STATUS_TEMP : Fld := ⟨reg_HBM_STATUS, 8, 8⟩
def HBM_STATUS_REFRESH_2X : Fld := ⟨reg_HBM_STATUS, 16, 1⟩
def HBM_STATUS_REMAP_MAX : Fld := ⟨reg_HBM_STATUS, 24, 7⟩
/-- HBM_EVENTS (R559). -/
def reg_HBM_EVENTS : Reg := ⟨0x400008, 0x10000, 24, 0x8, 1, 0x0⟩
def HBM_EVENTS_UE : Fld := ⟨reg_HBM_EVENTS, 0, 1⟩
def HBM_EVENTS_ROW_REMAPPED : Fld := ⟨reg_HBM_EVENTS, 1, 1⟩
def HBM_EVENTS_REMAP_FULL : Fld := ⟨reg_HBM_EVENTS, 2, 1⟩
def HBM_EVENTS_STACK_LOST : Fld := ⟨reg_HBM_EVENTS, 3, 1⟩
def HBM_EVENTS_WRITE_DROPPED : Fld := ⟨reg_HBM_EVENTS, 4, 1⟩
def HBM_EVENTS_SCRUB_DONE : Fld := ⟨reg_HBM_EVENTS, 5, 1⟩
def HBM_EVENTS_TG_DONE : Fld := ⟨reg_HBM_EVENTS, 6, 1⟩
def HBM_EVENTS_TG_REFUSED : Fld := ⟨reg_HBM_EVENTS, 7, 1⟩
/-- HBM_ECC (R560). -/
def reg_HBM_ECC : Reg := ⟨0x400010, 0x10000, 24, 0x8, 1, 0x0⟩
def HBM_ECC_CE : Fld := ⟨reg_HBM_ECC, 0, 32⟩
def HBM_ECC_UE : Fld := ⟨reg_HBM_ECC, 32, 16⟩
def HBM_ECC_POISON_READS : Fld := ⟨reg_HBM_ECC, 48, 16⟩
/-- HBM_UE_ADDR (R560). -/
def reg_HBM_UE_ADDR : Reg := ⟨0x400018, 0x10000, 24, 0x8, 1, 0x0⟩
def HBM_UE_ADDR_ADDR : Fld := ⟨reg_HBM_UE_ADDR, 0, 48⟩
def HBM_UE_ADDR_PC : Fld := ⟨reg_HBM_UE_ADDR, 48, 5⟩
def HBM_UE_ADDR_VALID : Fld := ⟨reg_HBM_UE_ADDR, 63, 1⟩
/-- HBM_CFG (R561). -/
def reg_HBM_CFG : Reg := ⟨0x400020, 0x10000, 24, 0x8, 1, 0xA0818⟩
def HBM_CFG_SCRUB_HOURS : Fld := ⟨reg_HBM_CFG, 0, 8⟩
def HBM_CFG_ROW_CE_LIMIT : Fld := ⟨reg_HBM_CFG, 8, 8⟩
def HBM_CFG_MIGRATE_PCT : Fld := ⟨reg_HBM_CFG, 16, 6⟩
def HBM_CFG_KEEP_SHED : Fld := ⟨reg_HBM_CFG, 24, 1⟩
/-- HBM_MIGRATE (R561). -/
def reg_HBM_MIGRATE : Reg := ⟨0x400028, 0x10000, 24, 0x8, 1, 0x0⟩
def HBM_MIGRATE_BLOCKS_DONE : Fld := ⟨reg_HBM_MIGRATE, 0, 20⟩
def HBM_MIGRATE_STATE : Fld := ⟨reg_HBM_MIGRATE, 20, 3⟩
def HBM_MIGRATE_LOST_STACK : Fld := ⟨reg_HBM_MIGRATE, 24, 5⟩
/-- HBM_GOLD_SRC0 (R562). -/
def reg_HBM_GOLD_SRC0 : Reg := ⟨0x400800, 0x10000, 24, 0x20, 64, 0x0⟩
def HBM_GOLD_SRC0_ADDR : Fld := ⟨reg_HBM_GOLD_SRC0, 0, 52⟩
def HBM_GOLD_SRC0_KIND : Fld := ⟨reg_HBM_GOLD_SRC0, 52, 2⟩
def HBM_GOLD_SRC0_DEV : Fld := ⟨reg_HBM_GOLD_SRC0, 54, 6⟩
/-- HBM_GOLD_SRC1 (R562). -/
def reg_HBM_GOLD_SRC1 : Reg := ⟨0x400808, 0x10000, 24, 0x20, 64, 0x0⟩
def HBM_GOLD_SRC1_ADDR : Fld := ⟨reg_HBM_GOLD_SRC1, 0, 52⟩
def HBM_GOLD_SRC1_KIND : Fld := ⟨reg_HBM_GOLD_SRC1, 52, 2⟩
def HBM_GOLD_SRC1_DEV : Fld := ⟨reg_HBM_GOLD_SRC1, 54, 6⟩
/-- HBM_GOLD_STATE (R562). -/
def reg_HBM_GOLD_STATE : Reg := ⟨0x400810, 0x10000, 24, 0x20, 64, 0x0⟩
def HBM_GOLD_STATE_PENDING : Fld := ⟨reg_HBM_GOLD_STATE, 0, 7⟩
def HBM_GOLD_STATE_REPAIRED : Fld := ⟨reg_HBM_GOLD_STATE, 16, 24⟩
def HBM_GOLD_STATE_FAILED : Fld := ⟨reg_HBM_GOLD_STATE, 40, 16⟩
/-- HBM_TG_CTL (R563). -/
def reg_HBM_TG_CTL : Reg := ⟨0x401000, 0x10000, 24, 0x40, 16, 0x160⟩
def HBM_TG_CTL_START : Fld := ⟨reg_HBM_TG_CTL, 0, 1⟩
def HBM_TG_CTL_MODE : Fld := ⟨reg_HBM_TG_CTL, 1, 2⟩
def HBM_TG_CTL_ORDER : Fld := ⟨reg_HBM_TG_CTL, 3, 2⟩
def HBM_TG_CTL_PC_MASK : Fld := ⟨reg_HBM_TG_CTL, 5, 2⟩
def HBM_TG_CTL_STOP_ON_FAIL : Fld := ⟨reg_HBM_TG_CTL, 7, 1⟩
def HBM_TG_CTL_PASSES : Fld := ⟨reg_HBM_TG_CTL, 8, 8⟩
def HBM_TG_CTL_BUSY : Fld := ⟨reg_HBM_TG_CTL, 16, 1⟩
/-- HBM_TG_RANGE (R563). -/
def reg_HBM_TG_RANGE : Reg := ⟨0x401008, 0x10000, 24, 0x40, 16, 0x0⟩
def HBM_TG_RANGE_ROW_LO : Fld := ⟨reg_HBM_TG_RANGE, 0, 20⟩
def HBM_TG_RANGE_ROW_HI : Fld := ⟨reg_HBM_TG_RANGE, 32, 20⟩
/-- HBM_TG_SEED (R563). -/
def reg_HBM_TG_SEED : Reg := ⟨0x401010, 0x10000, 24, 0x40, 16, 0x1⟩
def HBM_TG_SEED_SEED : Fld := ⟨reg_HBM_TG_SEED, 0, 31⟩
def HBM_TG_SEED_INVERT : Fld := ⟨reg_HBM_TG_SEED, 31, 1⟩
/-- HBM_TG_RESULT (R563). -/
def reg_HBM_TG_RESULT : Reg := ⟨0x401018, 0x10000, 24, 0x40, 16, 0x0⟩
def HBM_TG_RESULT_SECTORS : Fld := ⟨reg_HBM_TG_RESULT, 0, 32⟩
def HBM_TG_RESULT_MISCOMPARES : Fld := ⟨reg_HBM_TG_RESULT, 32, 16⟩
/-- HBM_TG_FAIL (R563). -/
def reg_HBM_TG_FAIL : Reg := ⟨0x401020, 0x10000, 24, 0x40, 16, 0x0⟩
def HBM_TG_FAIL_ROW : Fld := ⟨reg_HBM_TG_FAIL, 0, 20⟩
def HBM_TG_FAIL_PC : Fld := ⟨reg_HBM_TG_FAIL, 20, 1⟩
def HBM_TG_FAIL_SECTOR : Fld := ⟨reg_HBM_TG_FAIL, 21, 4⟩
def HBM_TG_FAIL_VALID : Fld := ⟨reg_HBM_TG_FAIL, 31, 1⟩
def HBM_TG_FAIL_DQ : Fld := ⟨reg_HBM_TG_FAIL, 32, 32⟩
/-- BLK_CFG (R610). -/
def reg_BLK_CFG : Reg := ⟨0x100000, 0x10000, 18, 0x8, 1, 0x800000000⟩
def BLK_CFG_ENABLE : Fld := ⟨reg_BLK_CFG, 0, 1⟩
def BLK_CFG_MODE : Fld := ⟨reg_BLK_CFG, 1, 2⟩
def BLK_CFG_EXPECT_DEV : Fld := ⟨reg_BLK_CFG, 8, 6⟩
def BLK_CFG_EXPECT_PORT : Fld := ⟨reg_BLK_CFG, 16, 5⟩
def BLK_CFG_MIN_WIDTH : Fld := ⟨reg_BLK_CFG, 24, 2⟩
def BLK_CFG_MARGIN_MV : Fld := ⟨reg_BLK_CFG, 32, 8⟩
/-- BLK_STATUS (R610). -/
def reg_BLK_STATUS : Reg := ⟨0x100008, 0x10000, 18, 0x8, 1, 0x0⟩
def BLK_STATUS_STATE : Fld := ⟨reg_BLK_STATUS, 0, 4⟩
def BLK_STATUS_WIDTH : Fld := ⟨reg_BLK_STATUS, 4, 4⟩
def BLK_STATUS_LANES : Fld := ⟨reg_BLK_STATUS, 8, 8⟩
def BLK_STATUS_REVERSED : Fld := ⟨reg_BLK_STATUS, 16, 1⟩
def BLK_STATUS_PEER_DEV : Fld := ⟨reg_BLK_STATUS, 24, 6⟩
def BLK_STATUS_PEER_PORT : Fld := ⟨reg_BLK_STATUS, 32, 5⟩
def BLK_STATUS_RTT : Fld := ⟨reg_BLK_STATUS, 40, 12⟩
/-- BLK_EVENTS (R611). -/
def reg_BLK_EVENTS : Reg := ⟨0x100010, 0x10000, 18, 0x8, 1, 0x0⟩
def BLK_EVENTS_UP : Fld := ⟨reg_BLK_EVENTS, 0, 1⟩
def BLK_EVENTS_DOWN : Fld := ⟨reg_BLK_EVENTS, 1, 1⟩
def BLK_EVENTS_RETRAIN : Fld := ⟨reg_BLK_EVENTS, 2, 1⟩
def BLK_EVENTS_WIDTH : Fld := ⟨reg_BLK_EVENTS, 3, 1⟩
def BLK_EVENTS_QUARANTINE : Fld := ⟨reg_BLK_EVENTS, 4, 1⟩
def BLK_EVENTS_CROSS_CONNECT : Fld := ⟨reg_BLK_EVENTS, 5, 1⟩
def BLK_EVENTS_LANE_ORDER : Fld := ⟨reg_BLK_EVENTS, 6, 1⟩
def BLK_EVENTS_REPLAY_LIMIT : Fld := ⟨reg_BLK_EVENTS, 7, 1⟩
def BLK_EVENTS_RX_DENIED : Fld := ⟨reg_BLK_EVENTS, 8, 1⟩
def BLK_EVENTS_FOREIGN_CTRL : Fld := ⟨reg_BLK_EVENTS, 9, 1⟩
def BLK_EVENTS_CREDIT_STALL : Fld := ⟨reg_BLK_EVENTS, 10, 1⟩
def BLK_EVENTS_NON_MEMBER : Fld := ⟨reg_BLK_EVENTS, 11, 1⟩
/-- BLK_COUNTS (R612). -/
def reg_BLK_COUNTS : Reg := ⟨0x100018, 0x10000, 18, 0x8, 1, 0x0⟩
def BLK_COUNTS_CRC_ERR : Fld := ⟨reg_BLK_COUNTS, 0, 32⟩
def BLK_COUNTS_REPLAYS : Fld := ⟨reg_BLK_COUNTS, 32, 16⟩
def BLK_COUNTS_RETRAINS : Fld := ⟨reg_BLK_COUNTS, 48, 16⟩
/-- BLK_TX_FLITS (R612). -/
def reg_BLK_TX_FLITS : Reg := ⟨0x100020, 0x10000, 18, 0x8, 1, 0x0⟩
def BLK_TX_FLITS_FLITS : Fld := ⟨reg_BLK_TX_FLITS, 0, 48⟩
/-- BLK_RX_FLITS (R612). -/
def reg_BLK_RX_FLITS : Reg := ⟨0x100028, 0x10000, 18, 0x8, 1, 0x0⟩
def BLK_RX_FLITS_FLITS : Fld := ⟨reg_BLK_RX_FLITS, 0, 48⟩
/-- BLK_DENIED (R613). -/
def reg_BLK_DENIED : Reg := ⟨0x100030, 0x10000, 18, 0x8, 1, 0x0⟩
def BLK_DENIED_COUNT : Fld := ⟨reg_BLK_DENIED, 0, 16⟩
def BLK_DENIED_SENDER : Fld := ⟨reg_BLK_DENIED, 16, 6⟩
def BLK_DENIED_FN : Fld := ⟨reg_BLK_DENIED, 22, 6⟩
/-- BLK_DENIED_ADDR (R613). -/
def reg_BLK_DENIED_ADDR : Reg := ⟨0x100038, 0x10000, 18, 0x8, 1, 0x0⟩
def BLK_DENIED_ADDR_ADDR : Fld := ⟨reg_BLK_DENIED_ADDR, 0, 48⟩
def BLK_DENIED_ADDR_VALID : Fld := ⟨reg_BLK_DENIED_ADDR, 63, 1⟩
/-- BLK_INGEST (R613). -/
def reg_BLK_INGEST : Reg := ⟨0x100040, 0x10000, 18, 0x8, 1, 0x0⟩
def BLK_INGEST_FN : Fld := ⟨reg_BLK_INGEST, 0, 6⟩
def BLK_INGEST_BOUND : Fld := ⟨reg_BLK_INGEST, 6, 1⟩
def BLK_INGEST_HELD_FINAL : Fld := ⟨reg_BLK_INGEST, 8, 9⟩
def BLK_INGEST_KEYS : Fld := ⟨reg_BLK_INGEST, 32, 13⟩
/-- BLK_LANE (R614). -/
def reg_BLK_LANE : Reg := ⟨0x100080, 0x10000, 18, 0x8, 8, 0x0⟩
def BLK_LANE_CAUSE : Fld := ⟨reg_BLK_LANE, 0, 3⟩
def BLK_LANE_POL_INV : Fld := ⟨reg_BLK_LANE, 3, 1⟩
def BLK_LANE_FAR_LANE : Fld := ⟨reg_BLK_LANE, 4, 3⟩
def BLK_LANE_EYE_MV : Fld := ⟨reg_BLK_LANE, 8, 8⟩
def BLK_LANE_EYE_MUI : Fld := ⟨reg_BLK_LANE, 16, 10⟩
def BLK_LANE_CORR : Fld := ⟨reg_BLK_LANE, 32, 32⟩
/-- GLOBAL_DOMAIN_CFG (R615). -/
def reg_GLOBAL_DOMAIN_CFG : Reg := ⟨0x50, 0x10000, 1, 0x8, 1, 0x200000⟩
def GLOBAL_DOMAIN_CFG_DOMAIN_ID : Fld := ⟨reg_GLOBAL_DOMAIN_CFG, 0, 16⟩
def GLOBAL_DOMAIN_CFG_TOPOLOGY : Fld := ⟨reg_GLOBAL_DOMAIN_CFG, 16, 2⟩
def GLOBAL_DOMAIN_CFG_DEAD_MS : Fld := ⟨reg_GLOBAL_DOMAIN_CFG, 20, 8⟩
def GLOBAL_DOMAIN_CFG_INGEST_SEL : Fld := ⟨reg_GLOBAL_DOMAIN_CFG, 28, 2⟩
/-- GLOBAL_MEMBERS (R615). -/
def reg_GLOBAL_MEMBERS : Reg := ⟨0x58, 0x10000, 1, 0x8, 1, 0x0⟩
def GLOBAL_MEMBERS_MASK : Fld := ⟨reg_GLOBAL_MEMBERS, 0, 64⟩
/-- GLOBAL_DEAD (R615). -/
def reg_GLOBAL_DEAD : Reg := ⟨0x60, 0x10000, 1, 0x8, 1, 0x0⟩
def GLOBAL_DEAD_MASK : Fld := ⟨reg_GLOBAL_DEAD, 0, 64⟩
/-- GLOBAL_DOMAIN_EVENTS (R615). -/
def reg_GLOBAL_DOMAIN_EVENTS : Reg := ⟨0x68, 0x10000, 1, 0x8, 1, 0x0⟩
def GLOBAL_DOMAIN_EVENTS_JOIN_REFUSED : Fld := ⟨reg_GLOBAL_DOMAIN_EVENTS, 0, 1⟩
def GLOBAL_DOMAIN_EVENTS_LEFT : Fld := ⟨reg_GLOBAL_DOMAIN_EVENTS, 1, 1⟩
def GLOBAL_DOMAIN_EVENTS_EXCLUDED : Fld := ⟨reg_GLOBAL_DOMAIN_EVENTS, 2, 1⟩
def GLOBAL_DOMAIN_EVENTS_REFUSE_CAUSE : Fld := ⟨reg_GLOBAL_DOMAIN_EVENTS, 8, 3⟩
/-- UCI_MBX_SEND (R627). -/
def reg_UCI_MBX_SEND : Reg := ⟨0x60038, 0x10000, 1, 0x8, 1, 0x0⟩
def UCI_MBX_SEND_VF : Fld := ⟨reg_UCI_MBX_SEND, 1, 63⟩
/-- UCI_MBX_PENDING (R627). -/
def reg_UCI_MBX_PENDING : Reg := ⟨0x60040, 0x10000, 1, 0x8, 1, 0x0⟩
def UCI_MBX_PENDING_VF : Fld := ⟨reg_UCI_MBX_PENDING, 1, 63⟩
/-- UCI_STATUS (R642). -/
def reg_UCI_STATUS : Reg := ⟨0x60000, 0x10000, 1, 0x8, 1, 0x0⟩
def UCI_STATUS_LINK_STATE : Fld := ⟨reg_UCI_STATUS, 0, 4⟩
def UCI_STATUS_MODULES : Fld := ⟨reg_UCI_STATUS, 4, 2⟩
def UCI_STATUS_ATTACHED : Fld := ⟨reg_UCI_STATUS, 8, 1⟩
def UCI_STATUS_DETACH_CAUSE : Fld := ⟨reg_UCI_STATUS, 9, 2⟩
def UCI_STATUS_NUM_VF : Fld := ⟨reg_UCI_STATUS, 16, 6⟩
def UCI_STATUS_HELD_REPLIES : Fld := ⟨reg_UCI_STATUS, 32, 13⟩
/-- UCI_EVENTS (R642). -/
def reg_UCI_EVENTS : Reg := ⟨0x60008, 0x10000, 1, 0x8, 1, 0x0⟩
def UCI_EVENTS_LINK_DOWN : Fld := ⟨reg_UCI_EVENTS, 0, 1⟩
def UCI_EVENTS_RETRAIN : Fld := ⟨reg_UCI_EVENTS, 1, 1⟩
def UCI_EVENTS_LANE_REPAIR : Fld := ⟨reg_UCI_EVENTS, 2, 1⟩
def UCI_EVENTS_MODULE_LOST : Fld := ⟨reg_UCI_EVENTS, 3, 1⟩
def UCI_EVENTS_DETACH : Fld := ⟨reg_UCI_EVENTS, 4, 1⟩
def UCI_EVENTS_ATTACH : Fld := ⟨reg_UCI_EVENTS, 5, 1⟩
def UCI_EVENTS_BAD_ACCESS : Fld := ⟨reg_UCI_EVENTS, 6, 1⟩
def UCI_EVENTS_DB_AHEAD : Fld := ⟨reg_UCI_EVENTS, 7, 1⟩
def UCI_EVENTS_DB_BAD : Fld := ⟨reg_UCI_EVENTS, 8, 1⟩
def UCI_EVENTS_HOST_TIMEOUT : Fld := ⟨reg_UCI_EVENTS, 9, 1⟩
/-- UCI_CFG (R643). -/
def reg_UCI_CFG : Reg := ⟨0x60010, 0x10000, 1, 0x8, 1, 0x32000A⟩
def UCI_CFG_DETACH_MS : Fld := ⟨reg_UCI_CFG, 0, 10⟩
def UCI_CFG_HOST_TIMEOUT_US : Fld := ⟨reg_UCI_CFG, 16, 10⟩
/-- UCI_BAR2_BASE (R643). -/
def reg_UCI_BAR2_BASE : Reg := ⟨0x60018, 0x10000, 1, 0x8, 1, 0x0⟩
def UCI_BAR2_BASE_BASE : Fld := ⟨reg_UCI_BAR2_BASE, 28, 20⟩
/-- UCI_LANES (R643). -/
def reg_UCI_LANES : Reg := ⟨0x60020, 0x10000, 1, 0x8, 1, 0x0⟩
def UCI_LANES_REPAIRED_M0 : Fld := ⟨reg_UCI_LANES, 0, 8⟩
def UCI_LANES_REPAIRED_M1 : Fld := ⟨reg_UCI_LANES, 8, 8⟩
def UCI_LANES_RETRAINS : Fld := ⟨reg_UCI_LANES, 32, 16⟩
/-- UCI_BAD_ACCESS (R644). -/
def reg_UCI_BAD_ACCESS : Reg := ⟨0x60028, 0x10000, 1, 0x8, 1, 0x0⟩
def UCI_BAD_ACCESS_OFFSET : Fld := ⟨reg_UCI_BAD_ACCESS, 0, 40⟩
def UCI_BAD_ACCESS_BAR : Fld := ⟨reg_UCI_BAD_ACCESS, 40, 2⟩
def UCI_BAD_ACCESS_WRITE : Fld := ⟨reg_UCI_BAD_ACCESS, 42, 1⟩
def UCI_BAD_ACCESS_FN : Fld := ⟨reg_UCI_BAD_ACCESS, 48, 6⟩
def UCI_BAD_ACCESS_VALID : Fld := ⟨reg_UCI_BAD_ACCESS, 63, 1⟩
/-- UCI_COUNTS (R644). -/
def reg_UCI_COUNTS : Reg := ⟨0x60030, 0x10000, 1, 0x8, 1, 0x0⟩
def UCI_COUNTS_DOORBELLS : Fld := ⟨reg_UCI_COUNTS, 0, 32⟩
def UCI_COUNTS_REREADS : Fld := ⟨reg_UCI_COUNTS, 32, 16⟩
def UCI_COUNTS_AHEAD : Fld := ⟨reg_UCI_COUNTS, 48, 16⟩
/-- CMD_ADMQ_SQ (R672). -/
def reg_CMD_ADMQ_SQ : Reg := ⟨0x40000, 0x10000, 1, 0x8, 1, 0x0⟩
def CMD_ADMQ_SQ_ADDR : Fld := ⟨reg_CMD_ADMQ_SQ, 12, 52⟩
/-- CMD_ADMQ_CQ (R672). -/
def reg_CMD_ADMQ_CQ : Reg := ⟨0x40008, 0x10000, 1, 0x8, 1, 0x0⟩
def CMD_ADMQ_CQ_ADDR : Fld := ⟨reg_CMD_ADMQ_CQ, 12, 52⟩
/-- CMD_ADMQ_CFG (R672). -/
def reg_CMD_ADMQ_CFG : Reg := ⟨0x40010, 0x10000, 1, 0x8, 1, 0x800676⟩
def CMD_ADMQ_CFG_SQ_LOG2 : Fld := ⟨reg_CMD_ADMQ_CFG, 0, 4⟩
def CMD_ADMQ_CFG_SLOT_LOG2 : Fld := ⟨reg_CMD_ADMQ_CFG, 4, 4⟩
def CMD_ADMQ_CFG_CQ_LOG2 : Fld := ⟨reg_CMD_ADMQ_CFG, 8, 4⟩
def CMD_ADMQ_CFG_VECTOR : Fld := ⟨reg_CMD_ADMQ_CFG, 12, 11⟩
def CMD_ADMQ_CFG_EVENTS : Fld := ⟨reg_CMD_ADMQ_CFG, 23, 1⟩
def CMD_ADMQ_CFG_ENABLE : Fld := ⟨reg_CMD_ADMQ_CFG, 32, 1⟩
/-- CMD_CFG (R673). -/
def reg_CMD_CFG : Reg := ⟨0x40018, 0x10000, 1, 0x8, 1, 0x64⟩
def CMD_CFG_FWD_MS : Fld := ⟨reg_CMD_CFG, 0, 10⟩
/-- CMD_COUNTS (R673). -/
def reg_CMD_COUNTS : Reg := ⟨0x40020, 0x10000, 1, 0x8, 1, 0x0⟩
def CMD_COUNTS_ACCEPTED : Fld := ⟨reg_CMD_COUNTS, 0, 32⟩
def CMD_COUNTS_DENIED : Fld := ⟨reg_CMD_COUNTS, 32, 16⟩
def CMD_COUNTS_FWD_LOST : Fld := ⟨reg_CMD_COUNTS, 48, 16⟩
/-- CMD_REJECT (R673). -/
def reg_CMD_REJECT : Reg := ⟨0x40028, 0x10000, 1, 0x8, 1, 0x0⟩
def CMD_REJECT_OPCODE : Fld := ⟨reg_CMD_REJECT, 0, 16⟩
def CMD_REJECT_STATUS : Fld := ⟨reg_CMD_REJECT, 16, 16⟩
def CMD_REJECT_CLASS : Fld := ⟨reg_CMD_REJECT, 32, 3⟩
def CMD_REJECT_FN : Fld := ⟨reg_CMD_REJECT, 40, 6⟩
def CMD_REJECT_VALID : Fld := ⟨reg_CMD_REJECT, 63, 1⟩
/-- SCHED_CFG (R699). -/
def reg_SCHED_CFG : Reg := ⟨0x50000, 0x10000, 1, 0x8, 1, 0x103E8⟩
def SCHED_CFG_QUANTUM_US : Fld := ⟨reg_SCHED_CFG, 0, 16⟩
def SCHED_CFG_SHARE_PREEMPT : Fld := ⟨reg_SCHED_CFG, 16, 1⟩
/-- SCHED_STATUS (R699). -/
def reg_SCHED_STATUS : Reg := ⟨0x50008, 0x10000, 1, 0x8, 1, 0x0⟩
def SCHED_STATUS_PODS_RUNNING : Fld := ⟨reg_SCHED_STATUS, 0, 8⟩
def SCHED_STATUS_PODS_SAVING : Fld := ⟨reg_SCHED_STATUS, 8, 8⟩
def SCHED_STATUS_STEP_PODUS : Fld := ⟨reg_SCHED_STATUS, 24, 40⟩
/-- SCHED_EVENTS (R699). -/
def reg_SCHED_EVENTS : Reg := ⟨0x50010, 0x10000, 1, 0x8, 1, 0x0⟩
def SCHED_EVENTS_SAVE_STALL : Fld := ⟨reg_SCHED_EVENTS, 0, 1⟩
def SCHED_EVENTS_ABORTED : Fld := ⟨reg_SCHED_EVENTS, 1, 1⟩
/-- SCHED_FN_CFG (R700). -/
def reg_SCHED_FN_CFG : Reg := ⟨0x51000, 0x10000, 1, 0x40, 64, 0x0⟩
def SCHED_FN_CFG_SHARE : Fld := ⟨reg_SCHED_FN_CFG, 0, 16⟩
def SCHED_FN_CFG_SAVE_WIN : Fld := ⟨reg_SCHED_FN_CFG, 16, 6⟩
def SCHED_FN_CFG_SAVE_SLOTS : Fld := ⟨reg_SCHED_FN_CFG, 24, 8⟩
def SCHED_FN_CFG_SAVE_SLOT_KIB : Fld := ⟨reg_SCHED_FN_CFG, 32, 16⟩
def SCHED_FN_CFG_SLOTS_USED : Fld := ⟨reg_SCHED_FN_CFG, 48, 8⟩
/-- SCHED_FN_SEQ (R700). -/
def reg_SCHED_FN_SEQ : Reg := ⟨0x51008, 0x10000, 1, 0x40, 64, 0x0⟩
def SCHED_FN_SEQ_SEQ_FIRST : Fld := ⟨reg_SCHED_FN_SEQ, 0, 12⟩
def SCHED_FN_SEQ_SEQ_COUNT : Fld := ⟨reg_SCHED_FN_SEQ, 16, 13⟩
def SCHED_FN_SEQ_PAGE_QUOTA : Fld := ⟨reg_SCHED_FN_SEQ, 32, 32⟩
/-- PD_GRANT (R701). -/
def reg_PD_GRANT : Reg := ⟨0x2000000, 0x1000, 192, 0x8, 1, 0x0⟩
def PD_GRANT_FN : Fld := ⟨reg_PD_GRANT, 0, 64⟩
/-- PD_CFG (R701). -/
def reg_PD_CFG : Reg := ⟨0x2000008, 0x1000, 192, 0x8, 1, 0x0⟩
def PD_CFG_STEP_POOL : Fld := ⟨reg_PD_CFG, 0, 1⟩
/-- PD_STATUS (R701). -/
def reg_PD_STATUS : Reg := ⟨0x2000010, 0x1000, 192, 0x8, 1, 0x0⟩
def PD_STATUS_OWNER_FN : Fld := ⟨reg_PD_STATUS, 0, 6⟩
def PD_STATUS_OWNER_KIND : Fld := ⟨reg_PD_STATUS, 6, 2⟩
def PD_STATUS_STATE : Fld := ⟨reg_PD_STATUS, 8, 3⟩
def PD_STATUS_LAST_SAVE_NS : Fld := ⟨reg_PD_STATUS, 16, 24⟩
/-- PD_SAVED (R702). -/
def reg_PD_SAVED : Reg := ⟨0x2000018, 0x1000, 192, 0x8, 1, 0x0⟩
def PD_SAVED_FN : Fld := ⟨reg_PD_SAVED, 0, 64⟩
/-- PWR_CFG (R740). -/
def reg_PWR_CFG : Reg := ⟨0x30000, 0x10000, 1, 0x8, 1, 0xC800C85D4800⟩
def PWR_CFG_MODE : Fld := ⟨reg_PWR_CFG, 0, 1⟩
def PWR_CFG_LIMIT_W : Fld := ⟨reg_PWR_CFG, 8, 12⟩
def PWR_CFG_WINDOW_MS : Fld := ⟨reg_PWR_CFG, 20, 4⟩
def PWR_CFG_BOOST_MARGIN_W : Fld := ⟨reg_PWR_CFG, 24, 10⟩
def PWR_CFG_IDLE_GATE_US : Fld := ⟨reg_PWR_CFG, 40, 16⟩
/-- PWR_STATUS (R740). -/
def reg_PWR_STATUS : Reg := ⟨0x30008, 0x10000, 1, 0x8, 1, 0x0⟩
def PWR_STATUS_EST_W : Fld := ⟨reg_PWR_STATUS, 0, 12⟩
def PWR_STATUS_MEAS_W : Fld := ⟨reg_PWR_STATUS, 16, 12⟩
def PWR_STATUS_MODE : Fld := ⟨reg_PWR_STATUS, 32, 1⟩
def PWR_STATUS_BOOSTING : Fld := ⟨reg_PWR_STATUS, 33, 1⟩
def PWR_STATUS_LIMITING : Fld := ⟨reg_PWR_STATUS, 34, 1⟩
def PWR_STATUS_HOTTEST_C : Fld := ⟨reg_PWR_STATUS, 40, 8⟩
/-- PWR_EVENTS (R741). -/
def reg_PWR_EVENTS : Reg := ⟨0x30010, 0x10000, 1, 0x8, 1, 0x0⟩
def PWR_EVENTS_LIMIT : Fld := ⟨reg_PWR_EVENTS, 0, 1⟩
def PWR_EVENTS_FAST_THROTTLE : Fld := ⟨reg_PWR_EVENTS, 1, 1⟩
def PWR_EVENTS_DROOP : Fld := ⟨reg_PWR_EVENTS, 2, 1⟩
def PWR_EVENTS_THERM_HOT : Fld := ⟨reg_PWR_EVENTS, 3, 1⟩
def PWR_EVENTS_THERM_CRIT : Fld := ⟨reg_PWR_EVENTS, 4, 1⟩
def PWR_EVENTS_DET_BREAK : Fld := ⟨reg_PWR_EVENTS, 5, 1⟩
def PWR_EVENTS_CEILING : Fld := ⟨reg_PWR_EVENTS, 6, 1⟩
def PWR_EVENTS_CAL_RANGE : Fld := ⟨reg_PWR_EVENTS, 7, 1⟩
def PWR_EVENTS_RAIL_ALARM : Fld := ⟨reg_PWR_EVENTS, 8, 1⟩
/-- PWR_THERM (R741). -/
def reg_PWR_THERM : Reg := ⟨0x30018, 0x10000, 1, 0x8, 1, 0x2873695F⟩
def PWR_THERM_T_HOT : Fld := ⟨reg_PWR_THERM, 0, 8⟩
def PWR_THERM_T_CRIT : Fld := ⟨reg_PWR_THERM, 8, 8⟩
def PWR_THERM_T_TRIP : Fld := ⟨reg_PWR_THERM, 16, 8⟩
def PWR_THERM_DROOP_MV : Fld := ⟨reg_PWR_THERM, 24, 8⟩
/-- PWR_HINT_CFG (R741). -/
def reg_PWR_HINT_CFG : Reg := ⟨0x30020, 0x10000, 1, 0x8, 1, 0x28190F⟩
def PWR_HINT_CFG_HEAVY_MV : Fld := ⟨reg_PWR_HINT_CFG, 0, 8⟩
def PWR_HINT_CFG_PEAK_MV : Fld := ⟨reg_PWR_HINT_CFG, 8, 8⟩
def PWR_HINT_CFG_LEAD_US : Fld := ⟨reg_PWR_HINT_CFG, 16, 8⟩
/-- PWR_RAIL0 (R742). -/
def reg_PWR_RAIL0 : Reg := ⟨0x30100, 0x10000, 1, 0x10, 33, 0x0⟩
def PWR_RAIL0_VOLT_MV : Fld := ⟨reg_PWR_RAIL0, 0, 12⟩
def PWR_RAIL0_CURR_DA : Fld := ⟨reg_PWR_RAIL0, 16, 12⟩
def PWR_RAIL0_LIMIT_DA : Fld := ⟨reg_PWR_RAIL0, 32, 12⟩
/-- PWR_RAIL1 (R742). -/
def reg_PWR_RAIL1 : Reg := ⟨0x30108, 0x10000, 1, 0x10, 33, 0x4000⟩
def PWR_RAIL1_CAL_GAIN : Fld := ⟨reg_PWR_RAIL1, 0, 16⟩
def PWR_RAIL1_TARGET_MV : Fld := ⟨reg_PWR_RAIL1, 16, 12⟩
def PWR_RAIL1_ALERTS : Fld := ⟨reg_PWR_RAIL1, 32, 16⟩
/-- PWR_DET_STATUS (R743). -/
def reg_PWR_DET_STATUS : Reg := ⟨0x30028, 0x10000, 1, 0x8, 1, 0x0⟩
def PWR_DET_STATUS_NEXT : Fld := ⟨reg_PWR_DET_STATUS, 0, 5⟩
def PWR_DET_STATUS_ENTRIES : Fld := ⟨reg_PWR_DET_STATUS, 16, 16⟩
def PWR_DET_STATUS_WRAPPED : Fld := ⟨reg_PWR_DET_STATUS, 32, 1⟩
/-- PWR_DET0 (R743). -/
def reg_PWR_DET0 : Reg := ⟨0x30800, 0x10000, 1, 0x10, 32, 0x0⟩
def PWR_DET0_TIME_NS : Fld := ⟨reg_PWR_DET0, 0, 48⟩
def PWR_DET0_REGION : Fld := ⟨reg_PWR_DET0, 48, 6⟩
def PWR_DET0_CAUSE : Fld := ⟨reg_PWR_DET0, 56, 3⟩
/-- PWR_DET1 (R743). -/
def reg_PWR_DET1 : Reg := ⟨0x30808, 0x10000, 1, 0x10, 32, 0x0⟩
def PWR_DET1_DURATION_NS : Fld := ⟨reg_PWR_DET1, 0, 32⟩
def PWR_DET1_MIN_FREQ : Fld := ⟨reg_PWR_DET1, 32, 4⟩
def PWR_DET1_VALID : Fld := ⟨reg_PWR_DET1, 63, 1⟩
/-- RGN_CLK (R744). -/
def reg_RGN_CLK : Reg := ⟨0x3000000, 0x1000, 48, 0x8, 1, 0x100BB⟩
def RGN_CLK_TARGET : Fld := ⟨reg_RGN_CLK, 0, 4⟩
def RGN_CLK_GRANTED : Fld := ⟨reg_RGN_CLK, 4, 4⟩
def RGN_CLK_CAUSE : Fld := ⟨reg_RGN_CLK, 8, 3⟩
def RGN_CLK_STRETCH : Fld := ⟨reg_RGN_CLK, 11, 1⟩
def RGN_CLK_CAP : Fld := ⟨reg_RGN_CLK, 12, 5⟩
/-- RGN_PWR (R744). -/
def reg_RGN_PWR : Reg := ⟨0x3000008, 0x1000, 48, 0x8, 1, 0x0⟩
def RGN_PWR_EST_DW : Fld := ⟨reg_RGN_PWR, 0, 16⟩
def RGN_PWR_TEMP0_C : Fld := ⟨reg_RGN_PWR, 16, 8⟩
def RGN_PWR_TEMP1_C : Fld := ⟨reg_RGN_PWR, 24, 8⟩
/-- RGN_TRIM (R744). -/
def reg_RGN_TRIM : Reg := ⟨0x3000010, 0x1000, 48, 0x8, 1, 0x0⟩
def RGN_TRIM_TRIM_MV : Fld := ⟨reg_RGN_TRIM, 0, 8⟩
def RGN_TRIM_SLACK_PS : Fld := ⟨reg_RGN_TRIM, 8, 16⟩
/-- RGN_EVENTS_COUNT (R744). -/
def reg_RGN_EVENTS_COUNT : Reg := ⟨0x3000018, 0x1000, 48, 0x8, 1, 0x0⟩
def RGN_EVENTS_COUNT_DROOPS : Fld := ⟨reg_RGN_EVENTS_COUNT, 0, 32⟩
def RGN_EVENTS_COUNT_THROTTLES : Fld := ⟨reg_RGN_EVENTS_COUNT, 32, 16⟩
def RGN_EVENTS_COUNT_THERM_STEPS : Fld := ⟨reg_RGN_EVENTS_COUNT, 48, 16⟩
/-- GLOBAL_ELOG0 (R751). -/
def reg_GLOBAL_ELOG0 : Reg := ⟨0x1000, 0x10000, 1, 0x20, 128, 0x0⟩
def GLOBAL_ELOG0_TIME_NS : Fld := ⟨reg_GLOBAL_ELOG0, 0, 48⟩
def GLOBAL_ELOG0_CLASS : Fld := ⟨reg_GLOBAL_ELOG0, 48, 2⟩
def GLOBAL_ELOG0_LEVEL : Fld := ⟨reg_GLOBAL_ELOG0, 50, 3⟩
def GLOBAL_ELOG0_VALID : Fld := ⟨reg_GLOBAL_ELOG0, 63, 1⟩
/-- GLOBAL_ELOG1 (R751). -/
def reg_GLOBAL_ELOG1 : Reg := ⟨0x1008, 0x10000, 1, 0x20, 128, 0x0⟩
def GLOBAL_ELOG1_TICK : Fld := ⟨reg_GLOBAL_ELOG1, 0, 48⟩
def GLOBAL_ELOG1_UNIT_KIND : Fld := ⟨reg_GLOBAL_ELOG1, 48, 4⟩
def GLOBAL_ELOG1_ACTION : Fld := ⟨reg_GLOBAL_ELOG1, 56, 8⟩
/-- GLOBAL_ELOG2 (R751). -/
def reg_GLOBAL_ELOG2 : Reg := ⟨0x1010, 0x10000, 1, 0x20, 128, 0x0⟩
def GLOBAL_ELOG2_UNIT_ID : Fld := ⟨reg_GLOBAL_ELOG2, 0, 16⟩
def GLOBAL_ELOG2_CODE : Fld := ⟨reg_GLOBAL_ELOG2, 16, 16⟩
def GLOBAL_ELOG2_ORIGIN : Fld := ⟨reg_GLOBAL_ELOG2, 32, 3⟩
def GLOBAL_ELOG2_OWNER_UNIT : Fld := ⟨reg_GLOBAL_ELOG2, 35, 12⟩
def GLOBAL_ELOG2_FN : Fld := ⟨reg_GLOBAL_ELOG2, 47, 6⟩
def GLOBAL_ELOG2_STEP : Fld := ⟨reg_GLOBAL_ELOG2, 53, 1⟩
/-- GLOBAL_ELOG3 (R751). -/
def reg_GLOBAL_ELOG3 : Reg := ⟨0x1018, 0x10000, 1, 0x20, 128, 0x0⟩
def GLOBAL_ELOG3_DETAIL : Fld := ⟨reg_GLOBAL_ELOG3, 0, 64⟩
/-- GLOBAL_ELOG_STATUS (R768). -/
def reg_GLOBAL_ELOG_STATUS : Reg := ⟨0x80, 0x10000, 1, 0x8, 1, 0x0⟩
def GLOBAL_ELOG_STATUS_NEXT : Fld := ⟨reg_GLOBAL_ELOG_STATUS, 0, 7⟩
def GLOBAL_ELOG_STATUS_ENTRIES : Fld := ⟨reg_GLOBAL_ELOG_STATUS, 16, 16⟩
def GLOBAL_ELOG_STATUS_WRAPPED : Fld := ⟨reg_GLOBAL_ELOG_STATUS, 32, 1⟩
def GLOBAL_ELOG_STATUS_FATAL : Fld := ⟨reg_GLOBAL_ELOG_STATUS, 33, 1⟩
/-- GLOBAL_REPAIR_CFG (R768). -/
def reg_GLOBAL_REPAIR_CFG : Reg := ⟨0x88, 0x10000, 1, 0x8, 1, 0x3E8A801⟩
def GLOBAL_REPAIR_CFG_AUTO : Fld := ⟨reg_GLOBAL_REPAIR_CFG, 0, 1⟩
def GLOBAL_REPAIR_CFG_TILE_UE_HOURS : Fld := ⟨reg_GLOBAL_REPAIR_CFG, 8, 8⟩
def GLOBAL_REPAIR_CFG_JOIN_CE_LIMIT : Fld := ⟨reg_GLOBAL_REPAIR_CFG, 16, 16⟩
/-- GLOBAL_REPAIR_STATUS (R768). -/
def reg_GLOBAL_REPAIR_STATUS : Reg := ⟨0x90, 0x10000, 1, 0x8, 1, 0x0⟩
def GLOBAL_REPAIR_STATUS_BYPASS_PENDING : Fld := ⟨reg_GLOBAL_REPAIR_STATUS, 0, 1⟩
def GLOBAL_REPAIR_STATUS_SLICE_PENDING : Fld := ⟨reg_GLOBAL_REPAIR_STATUS, 1, 1⟩
def GLOBAL_REPAIR_STATUS_RESELECT : Fld := ⟨reg_GLOBAL_REPAIR_STATUS, 2, 1⟩
def GLOBAL_REPAIR_STATUS_FW_SWITCH : Fld := ⟨reg_GLOBAL_REPAIR_STATUS, 3, 1⟩
def GLOBAL_REPAIR_STATUS_PODS_RETIRED : Fld := ⟨reg_GLOBAL_REPAIR_STATUS, 16, 8⟩
def GLOBAL_REPAIR_STATUS_SLICES_REMAPPED : Fld := ⟨reg_GLOBAL_REPAIR_STATUS, 24, 8⟩
def GLOBAL_REPAIR_STATUS_FW_VERSION : Fld := ⟨reg_GLOBAL_REPAIR_STATUS, 32, 32⟩
/-- HUSK_STATUS (R795). -/
def reg_HUSK_STATUS : Reg := ⟨0x20000, 0x10000, 1, 0x8, 1, 0x0⟩
def HUSK_STATUS_SEALED : Fld := ⟨reg_HUSK_STATUS, 0, 1⟩
def HUSK_STATUS_STAGE : Fld := ⟨reg_HUSK_STATUS, 1, 4⟩
def HUSK_STATUS_CFG_COPY : Fld := ⟨reg_HUSK_STATUS, 5, 1⟩
def HUSK_STATUS_ID_FAIL : Fld := ⟨reg_HUSK_STATUS, 16, 16⟩
def HUSK_STATUS_CFG_SEQ : Fld := ⟨reg_HUSK_STATUS, 32, 32⟩
/-- HUSK_EVENTS (R795). -/
def reg_HUSK_EVENTS : Reg := ⟨0x20008, 0x10000, 1, 0x8, 1, 0x0⟩
def HUSK_EVENTS_WDOG_FIRED : Fld := ⟨reg_HUSK_EVENTS, 0, 1⟩
def HUSK_EVENTS_MEM_VIOLATION : Fld := ⟨reg_HUSK_EVENTS, 1, 1⟩
def HUSK_EVENTS_FW_SLOT_DONE : Fld := ⟨reg_HUSK_EVENTS, 2, 1⟩
def HUSK_EVENTS_FW_SLOT_FAILED : Fld := ⟨reg_HUSK_EVENTS, 3, 1⟩
def HUSK_EVENTS_RESTART_LIMIT : Fld := ⟨reg_HUSK_EVENTS, 4, 1⟩
/-- HUSK_CEIL (R796). -/
def reg_HUSK_CEIL : Reg := ⟨0x20010, 0x10000, 1, 0x8, 1, 0x0⟩
def HUSK_CEIL_LIMIT_W : Fld := ⟨reg_HUSK_CEIL, 0, 12⟩
def HUSK_CEIL_VCD_MV : Fld := ⟨reg_HUSK_CEIL, 16, 12⟩
def HUSK_CEIL_T_HOT_C : Fld := ⟨reg_HUSK_CEIL, 32, 8⟩
def HUSK_CEIL_T_CRIT_C : Fld := ⟨reg_HUSK_CEIL, 40, 8⟩
/-- HUSK_PORTS (R796). -/
def reg_HUSK_PORTS : Reg := ⟨0x20018, 0x10000, 1, 0x8, 1, 0x0⟩
def HUSK_PORTS_ENABLE : Fld := ⟨reg_HUSK_PORTS, 0, 18⟩
/-- HUSK_TILE_CS (R796). -/
def reg_HUSK_TILE_CS : Reg := ⟨0x20020, 0x10000, 1, 0x8, 1, 0x0⟩
def HUSK_TILE_CS_READ : Fld := ⟨reg_HUSK_TILE_CS, 0, 13⟩
def HUSK_TILE_CS_WRITE : Fld := ⟨reg_HUSK_TILE_CS, 16, 13⟩
/-- HUSK_WDOG (R796). -/
def reg_HUSK_WDOG : Reg := ⟨0x20028, 0x10000, 1, 0x8, 1, 0x0⟩
def HUSK_WDOG_TIMEOUT_MS : Fld := ⟨reg_HUSK_WDOG, 0, 10⟩
def HUSK_WDOG_RESTARTS : Fld := ⟨reg_HUSK_WDOG, 16, 16⟩
def HUSK_WDOG_LAST_CTX : Fld := ⟨reg_HUSK_WDOG, 32, 4⟩
def HUSK_WDOG_RUN_MASK : Fld := ⟨reg_HUSK_WDOG, 48, 16⟩
/-- HUSK_VIOL (R797). -/
def reg_HUSK_VIOL : Reg := ⟨0x20030, 0x10000, 1, 0x8, 1, 0x0⟩
def HUSK_VIOL_ADDR : Fld := ⟨reg_HUSK_VIOL, 0, 48⟩
def HUSK_VIOL_CTX : Fld := ⟨reg_HUSK_VIOL, 48, 4⟩
def HUSK_VIOL_WRITE : Fld := ⟨reg_HUSK_VIOL, 52, 1⟩
def HUSK_VIOL_VALID : Fld := ⟨reg_HUSK_VIOL, 63, 1⟩
/-- HUSK_FW_STATUS (R797). -/
def reg_HUSK_FW_STATUS : Reg := ⟨0x20038, 0x10000, 1, 0x8, 1, 0x0⟩
def HUSK_FW_STATUS_BUF_BYTES : Fld := ⟨reg_HUSK_FW_STATUS, 0, 25⟩
def HUSK_FW_STATUS_BUF_STATE : Fld := ⟨reg_HUSK_FW_STATUS, 25, 2⟩
def HUSK_FW_STATUS_SLOT_STATE : Fld := ⟨reg_HUSK_FW_STATUS, 28, 2⟩
def HUSK_FW_STATUS_BUF_TYPE : Fld := ⟨reg_HUSK_FW_STATUS, 32, 2⟩
def HUSK_FW_STATUS_LIVE_UPDATES : Fld := ⟨reg_HUSK_FW_STATUS, 40, 8⟩
/-- HUSK_RAIL_CEIL (R799). -/
def reg_HUSK_RAIL_CEIL : Reg := ⟨0x200C0, 0x10000, 1, 0x8, 33, 0x0⟩
def HUSK_RAIL_CEIL_LIMIT_DA : Fld := ⟨reg_HUSK_RAIL_CEIL, 0, 12⟩
/-- HUSK_FW_WIN0 (R799). -/
def reg_HUSK_FW_WIN0 : Reg := ⟨0x20200, 0x10000, 1, 0x10, 16, 0x0⟩
def HUSK_FW_WIN0_BASE : Fld := ⟨reg_HUSK_FW_WIN0, 0, 48⟩
def HUSK_FW_WIN0_VALID : Fld := ⟨reg_HUSK_FW_WIN0, 63, 1⟩
/-- HUSK_FW_WIN1 (R799). -/
def reg_HUSK_FW_WIN1 : Reg := ⟨0x20208, 0x10000, 1, 0x10, 16, 0x0⟩
def HUSK_FW_WIN1_SIZE_4K : Fld := ⟨reg_HUSK_FW_WIN1, 0, 36⟩
def HUSK_FW_WIN1_READ : Fld := ⟨reg_HUSK_FW_WIN1, 48, 1⟩
def HUSK_FW_WIN1_WRITE : Fld := ⟨reg_HUSK_FW_WIN1, 49, 1⟩
/-- HUSK_INGEST_WIN0 (R799). -/
def reg_HUSK_INGEST_WIN0 : Reg := ⟨0x20300, 0x10000, 1, 0x10, 12, 0x0⟩
def HUSK_INGEST_WIN0_BASE : Fld := ⟨reg_HUSK_INGEST_WIN0, 0, 48⟩
def HUSK_INGEST_WIN0_VALID : Fld := ⟨reg_HUSK_INGEST_WIN0, 63, 1⟩
/-- HUSK_INGEST_WIN1 (R799). -/
def reg_HUSK_INGEST_WIN1 : Reg := ⟨0x20308, 0x10000, 1, 0x10, 12, 0x0⟩
def HUSK_INGEST_WIN1_SIZE_64K : Fld := ⟨reg_HUSK_INGEST_WIN1, 0, 24⟩
/-- HUSK_OPC (R799). -/
def reg_HUSK_OPC : Reg := ⟨0x20400, 0x10000, 1, 0x8, 45, 0x0⟩
def HUSK_OPC_OPCODE : Fld := ⟨reg_HUSK_OPC, 0, 16⟩
def HUSK_OPC_CLASSES : Fld := ⟨reg_HUSK_OPC, 16, 5⟩
/-- HUSK_DIGEST (R798). -/
def reg_HUSK_DIGEST : Reg := ⟨0x20040, 0x10000, 1, 0x8, 4, 0x0⟩
def HUSK_DIGEST_VALUE : Fld := ⟨reg_HUSK_DIGEST, 0, 64⟩
/-- SCHED_FN_ENGINE (R700). -/
def reg_SCHED_FN_ENGINE : Reg := ⟨0x51010, 0x10000, 1, 0x40, 64, 0x0⟩
def SCHED_FN_ENGINE_V : Fld := ⟨reg_SCHED_FN_ENGINE, 0, 64⟩
/-- SCHED_FN_WAIT (R700). -/
def reg_SCHED_FN_WAIT : Reg := ⟨0x51018, 0x10000, 1, 0x40, 64, 0x0⟩
def SCHED_FN_WAIT_V : Fld := ⟨reg_SCHED_FN_WAIT, 0, 64⟩
/-- SCHED_FN_COMMANDS (R700). -/
def reg_SCHED_FN_COMMANDS : Reg := ⟨0x51020, 0x10000, 1, 0x40, 64, 0x0⟩
def SCHED_FN_COMMANDS_V : Fld := ⟨reg_SCHED_FN_COMMANDS, 0, 64⟩
/-- SCHED_FN_PREEMPTS (R700). -/
def reg_SCHED_FN_PREEMPTS : Reg := ⟨0x51028, 0x10000, 1, 0x40, 64, 0x0⟩
def SCHED_FN_PREEMPTS_V : Fld := ⟨reg_SCHED_FN_PREEMPTS, 0, 64⟩
/-- SCHED_FN_LOST (R700). -/
def reg_SCHED_FN_LOST : Reg := ⟨0x51030, 0x10000, 1, 0x40, 64, 0x0⟩
def SCHED_FN_LOST_V : Fld := ⟨reg_SCHED_FN_LOST, 0, 64⟩
/-- SCHED_FN_SAVED (R700). -/
def reg_SCHED_FN_SAVED : Reg := ⟨0x51038, 0x10000, 1, 0x40, 64, 0x0⟩
def SCHED_FN_SAVED_V : Fld := ⟨reg_SCHED_FN_SAVED, 0, 64⟩
/-- SCHED_FN_VT (R700). -/
def reg_SCHED_FN_VT : Reg := ⟨0x52000, 0x10000, 1, 0x8, 64, 0x0⟩
def SCHED_FN_VT_V : Fld := ⟨reg_SCHED_FN_VT, 0, 64⟩
/-- PD_OPP (R745). -/
def reg_PD_OPP : Reg := ⟨0x2000020, 0x1000, 192, 0x8, 1, 0xB0B0B⟩
def PD_OPP_STEP : Fld := ⟨reg_PD_OPP, 0, 8⟩
def PD_OPP_OPEN : Fld := ⟨reg_PD_OPP, 8, 8⟩
def PD_OPP_GUARD : Fld := ⟨reg_PD_OPP, 16, 8⟩

/-- A row of the access map: a register and its fields as (low bit, width, access type). -/
structure RegRow where
  reg  : Reg
  flds : List (Nat × Nat × Acc)
deriving DecidableEq, Repr

/-- Registers of block GLOBAL with the access types of their fields. -/
def rowsGlobal : List RegRow := [
  ⟨reg_GLOBAL_PART, [(0, 32, .ro), (32, 4, .ro), (36, 4, .ro)]⟩,
  ⟨reg_GLOBAL_DEV, [(0, 6, .ro), (8, 7, .ro), (16, 1, .ro), (17, 1, .ro)]⟩,
  ⟨reg_GLOBAL_INV, [(0, 12, .ro), (12, 8, .ro), (20, 9, .ro), (32, 5, .ro), (40, 3, .ro)]⟩,
  ⟨reg_GLOBAL_FENCE_CFG, [(0, 14, .rw)]⟩,
  ⟨reg_GLOBAL_LOSTW_STATUS, [(0, 6, .ro), (16, 16, .rc), (32, 1, .w1c)]⟩,
  ⟨reg_GLOBAL_LOSTW0, [(0, 6, .ro), (6, 1, .ro), (8, 3, .ro), (11, 12, .ro), (23, 6, .ro), (29, 1, .ro), (32, 12, .ro), (48, 16, .ro)]⟩,
  ⟨reg_GLOBAL_LOSTW1, [(0, 48, .ro), (63, 1, .ro)]⟩,
  ⟨reg_GLOBAL_DOMAIN_CFG, [(0, 16, .ro), (16, 2, .ro), (20, 8, .rw), (28, 2, .ro)]⟩,
  ⟨reg_GLOBAL_MEMBERS, [(0, 64, .ro)]⟩,
  ⟨reg_GLOBAL_DEAD, [(0, 64, .w1c)]⟩,
  ⟨reg_GLOBAL_DOMAIN_EVENTS, [(0, 1, .w1c), (1, 1, .w1c), (2, 1, .w1c), (8, 3, .ro)]⟩,
  ⟨reg_GLOBAL_ELOG0, [(0, 48, .ro), (48, 2, .ro), (50, 3, .ro), (63, 1, .ro)]⟩,
  ⟨reg_GLOBAL_ELOG1, [(0, 48, .ro), (48, 4, .ro), (56, 8, .ro)]⟩,
  ⟨reg_GLOBAL_ELOG2, [(0, 16, .ro), (16, 16, .ro), (32, 3, .ro), (35, 12, .ro), (47, 6, .ro), (53, 1, .ro)]⟩,
  ⟨reg_GLOBAL_ELOG3, [(0, 64, .ro)]⟩,
  ⟨reg_GLOBAL_ELOG_STATUS, [(0, 7, .ro), (16, 16, .rc), (32, 1, .w1c), (33, 1, .ro)]⟩,
  ⟨reg_GLOBAL_REPAIR_CFG, [(0, 1, .rw), (8, 8, .rw), (16, 16, .rw)]⟩,
  ⟨reg_GLOBAL_REPAIR_STATUS, [(0, 1, .ro), (1, 1, .ro), (2, 1, .ro), (3, 1, .ro), (16, 8, .ro), (24, 8, .ro), (32, 32, .ro)]⟩]

/-- Registers of block TICK with the access types of their fields. -/
def rowsTick : List RegRow := [
  ⟨reg_TICK_CTL, [(0, 17, .rw), (20, 11, .rw), (32, 1, .rw), (36, 2, .rw), (40, 4, .rw), (44, 1, .rw)]⟩,
  ⟨reg_TICK_MASTER_CFG, [(0, 6, .ro), (6, 3, .ro), (16, 6, .ro), (22, 6, .ro), (28, 6, .ro), (34, 6, .ro), (40, 6, .ro), (46, 6, .ro), (52, 6, .ro)]⟩,
  ⟨reg_TICK_STATUS, [(0, 2, .ro), (2, 1, .ro), (3, 3, .ro), (6, 1, .ro), (8, 2, .ro), (10, 4, .ro), (16, 16, .ro)]⟩,
  ⟨reg_TICK_EVENTS, [(0, 1, .w1c), (1, 1, .w1c), (2, 1, .w1c), (3, 1, .w1c), (4, 1, .w1c), (5, 1, .w1c), (6, 1, .w1c), (7, 1, .w1c), (8, 1, .w1c), (9, 1, .w1c), (10, 1, .w1c)]⟩,
  ⟨reg_TICK_NUMBER, [(0, 64, .ro)]⟩,
  ⟨reg_TICK_TIME, [(0, 16, .ro), (16, 48, .ro)]⟩,
  ⟨reg_TICK_STEP, [(0, 20, .ro), (32, 8, .ro)]⟩,
  ⟨reg_TICK_COUNTS, [(0, 16, .rc), (16, 16, .rc), (32, 16, .rc), (48, 16, .rc)]⟩,
  ⟨reg_TICK_IMAGE, [(0, 32, .ro), (32, 32, .ro)]⟩,
  ⟨reg_TICK_SEQ, [(8, 40, .ro)]⟩]

/-- Registers of block HUSK with the access types of their fields. -/
def rowsHusk : List RegRow := [
  ⟨reg_HUSK_STATUS, [(0, 1, .ro), (1, 4, .ro), (5, 1, .ro), (16, 16, .ro), (32, 32, .ro)]⟩,
  ⟨reg_HUSK_EVENTS, [(0, 1, .w1c), (1, 1, .w1c), (2, 1, .w1c), (3, 1, .w1c), (4, 1, .w1c)]⟩,
  ⟨reg_HUSK_CEIL, [(0, 12, .ro), (16, 12, .ro), (32, 8, .ro), (40, 8, .ro)]⟩,
  ⟨reg_HUSK_PORTS, [(0, 18, .ro)]⟩,
  ⟨reg_HUSK_TILE_CS, [(0, 13, .ro), (16, 13, .ro)]⟩,
  ⟨reg_HUSK_WDOG, [(0, 10, .ro), (16, 16, .rc), (32, 4, .ro), (48, 16, .ro)]⟩,
  ⟨reg_HUSK_VIOL, [(0, 48, .ro), (48, 4, .ro), (52, 1, .ro), (63, 1, .w1c)]⟩,
  ⟨reg_HUSK_FW_STATUS, [(0, 25, .ro), (25, 2, .ro), (28, 2, .ro), (32, 2, .ro), (40, 8, .ro)]⟩,
  ⟨reg_HUSK_RAIL_CEIL, [(0, 12, .ro)]⟩,
  ⟨reg_HUSK_FW_WIN0, [(0, 48, .ro), (63, 1, .ro)]⟩,
  ⟨reg_HUSK_FW_WIN1, [(0, 36, .ro), (48, 1, .ro), (49, 1, .ro)]⟩,
  ⟨reg_HUSK_INGEST_WIN0, [(0, 48, .ro), (63, 1, .ro)]⟩,
  ⟨reg_HUSK_INGEST_WIN1, [(0, 24, .ro)]⟩,
  ⟨reg_HUSK_OPC, [(0, 16, .ro), (16, 5, .ro)]⟩,
  ⟨reg_HUSK_DIGEST, [(0, 64, .ro)]⟩]

/-- Registers of block PWR with the access types of their fields. -/
def rowsPwr : List RegRow := [
  ⟨reg_PWR_CFG, [(0, 1, .rw), (8, 12, .rw), (20, 4, .rw), (24, 10, .rw), (40, 16, .rw)]⟩,
  ⟨reg_PWR_STATUS, [(0, 12, .ro), (16, 12, .ro), (32, 1, .ro), (33, 1, .ro), (34, 1, .ro), (40, 8, .ro)]⟩,
  ⟨reg_PWR_EVENTS, [(0, 1, .w1c), (1, 1, .w1c), (2, 1, .w1c), (3, 1, .w1c), (4, 1, .w1c), (5, 1, .w1c), (6, 1, .w1c), (7, 1, .w1c), (8, 1, .w1c)]⟩,
  ⟨reg_PWR_THERM, [(0, 8, .rw), (8, 8, .rw), (16, 8, .ro), (24, 8, .rw)]⟩,
  ⟨reg_PWR_HINT_CFG, [(0, 8, .rw), (8, 8, .rw), (16, 8, .rw)]⟩,
  ⟨reg_PWR_RAIL0, [(0, 12, .ro), (16, 12, .ro), (32, 12, .rw)]⟩,
  ⟨reg_PWR_RAIL1, [(0, 16, .ro), (16, 12, .ro), (32, 16, .rc)]⟩,
  ⟨reg_PWR_DET_STATUS, [(0, 5, .ro), (16, 16, .rc), (32, 1, .w1c)]⟩,
  ⟨reg_PWR_DET0, [(0, 48, .ro), (48, 6, .ro), (56, 3, .ro)]⟩,
  ⟨reg_PWR_DET1, [(0, 32, .ro), (32, 4, .ro), (63, 1, .ro)]⟩]

/-- Registers of block CMD with the access types of their fields. -/
def rowsCmd : List RegRow := [
  ⟨reg_CMD_ADMQ_SQ, [(12, 52, .rw)]⟩,
  ⟨reg_CMD_ADMQ_CQ, [(12, 52, .rw)]⟩,
  ⟨reg_CMD_ADMQ_CFG, [(0, 4, .rw), (4, 4, .rw), (8, 4, .rw), (12, 11, .rw), (23, 1, .rw), (32, 1, .rw)]⟩,
  ⟨reg_CMD_CFG, [(0, 10, .rw)]⟩,
  ⟨reg_CMD_COUNTS, [(0, 32, .rc), (32, 16, .rc), (48, 16, .rc)]⟩,
  ⟨reg_CMD_REJECT, [(0, 16, .ro), (16, 16, .ro), (32, 3, .ro), (40, 6, .ro), (63, 1, .w1c)]⟩]

/-- Registers of block SCHED with the access types of their fields. -/
def rowsSched : List RegRow := [
  ⟨reg_SCHED_CFG, [(0, 16, .rw), (16, 1, .rw)]⟩,
  ⟨reg_SCHED_STATUS, [(0, 8, .ro), (8, 8, .ro), (24, 40, .ro)]⟩,
  ⟨reg_SCHED_EVENTS, [(0, 1, .w1c), (1, 1, .w1c)]⟩,
  ⟨reg_SCHED_FN_CFG, [(0, 16, .ro), (16, 6, .ro), (24, 8, .ro), (32, 16, .ro), (48, 8, .ro)]⟩,
  ⟨reg_SCHED_FN_SEQ, [(0, 12, .ro), (16, 13, .ro), (32, 32, .ro)]⟩,
  ⟨reg_SCHED_FN_ENGINE, [(0, 64, .ro)]⟩,
  ⟨reg_SCHED_FN_WAIT, [(0, 64, .ro)]⟩,
  ⟨reg_SCHED_FN_COMMANDS, [(0, 64, .ro)]⟩,
  ⟨reg_SCHED_FN_PREEMPTS, [(0, 64, .ro)]⟩,
  ⟨reg_SCHED_FN_LOST, [(0, 64, .ro)]⟩,
  ⟨reg_SCHED_FN_SAVED, [(0, 64, .ro)]⟩,
  ⟨reg_SCHED_FN_VT, [(0, 64, .ro)]⟩]

/-- Registers of block UCI with the access types of their fields. -/
def rowsUci : List RegRow := [
  ⟨reg_UCI_MBX_SEND, [(1, 63, .wo)]⟩,
  ⟨reg_UCI_MBX_PENDING, [(1, 63, .w1c)]⟩,
  ⟨reg_UCI_STATUS, [(0, 4, .ro), (4, 2, .ro), (8, 1, .ro), (9, 2, .ro), (16, 6, .ro), (32, 13, .ro)]⟩,
  ⟨reg_UCI_EVENTS, [(0, 1, .w1c), (1, 1, .w1c), (2, 1, .w1c), (3, 1, .w1c), (4, 1, .w1c), (5, 1, .w1c), (6, 1, .w1c), (7, 1, .w1c), (8, 1, .w1c), (9, 1, .w1c)]⟩,
  ⟨reg_UCI_CFG, [(0, 10, .rw), (16, 10, .rw)]⟩,
  ⟨reg_UCI_BAR2_BASE, [(28, 20, .rw)]⟩,
  ⟨reg_UCI_LANES, [(0, 8, .ro), (8, 8, .ro), (32, 16, .rc)]⟩,
  ⟨reg_UCI_BAD_ACCESS, [(0, 40, .ro), (40, 2, .ro), (42, 1, .ro), (48, 6, .ro), (63, 1, .w1c)]⟩,
  ⟨reg_UCI_COUNTS, [(0, 32, .rc), (32, 16, .rc), (48, 16, .rc)]⟩]

/-- Registers of block BLK with the access types of their fields. -/
def rowsBlk : List RegRow := [
  ⟨reg_BLK_CFG, [(0, 1, .rw), (1, 2, .rw), (8, 6, .ro), (16, 5, .ro), (24, 2, .rw), (32, 8, .rw)]⟩,
  ⟨reg_BLK_STATUS, [(0, 4, .ro), (4, 4, .ro), (8, 8, .ro), (16, 1, .ro), (24, 6, .ro), (32, 5, .ro), (40, 12, .ro)]⟩,
  ⟨reg_BLK_EVENTS, [(0, 1, .w1c), (1, 1, .w1c), (2, 1, .w1c), (3, 1, .w1c), (4, 1, .w1c), (5, 1, .w1c), (6, 1, .w1c), (7, 1, .w1c), (8, 1, .w1c), (9, 1, .w1c), (10, 1, .w1c), (11, 1, .w1c)]⟩,
  ⟨reg_BLK_COUNTS, [(0, 32, .rc), (32, 16, .rc), (48, 16, .rc)]⟩,
  ⟨reg_BLK_TX_FLITS, [(0, 48, .rc)]⟩,
  ⟨reg_BLK_RX_FLITS, [(0, 48, .rc)]⟩,
  ⟨reg_BLK_DENIED, [(0, 16, .rc), (16, 6, .ro), (22, 6, .ro)]⟩,
  ⟨reg_BLK_DENIED_ADDR, [(0, 48, .ro), (63, 1, .w1c)]⟩,
  ⟨reg_BLK_INGEST, [(0, 6, .ro), (6, 1, .ro), (8, 9, .ro), (32, 13, .ro)]⟩,
  ⟨reg_BLK_LANE, [(0, 3, .ro), (3, 1, .ro), (4, 3, .ro), (8, 8, .ro), (16, 10, .ro), (32, 32, .rc)]⟩]

/-- Registers of block HBM with the access types of their fields. -/
def rowsHbm : List RegRow := [
  ⟨reg_HBM_STATUS, [(0, 3, .ro), (8, 8, .ro), (16, 1, .ro), (24, 7, .ro)]⟩,
  ⟨reg_HBM_EVENTS, [(0, 1, .w1c), (1, 1, .w1c), (2, 1, .w1c), (3, 1, .w1c), (4, 1, .w1c), (5, 1, .w1c), (6, 1, .w1c), (7, 1, .w1c)]⟩,
  ⟨reg_HBM_ECC, [(0, 32, .rc), (32, 16, .rc), (48, 16, .rc)]⟩,
  ⟨reg_HBM_UE_ADDR, [(0, 48, .ro), (48, 5, .ro), (63, 1, .w1c)]⟩,
  ⟨reg_HBM_CFG, [(0, 8, .rw), (8, 8, .rw), (16, 6, .rw), (24, 1, .rw)]⟩,
  ⟨reg_HBM_MIGRATE, [(0, 20, .ro), (20, 3, .ro), (24, 5, .ro)]⟩,
  ⟨reg_HBM_GOLD_SRC0, [(0, 52, .ro), (52, 2, .ro), (54, 6, .ro)]⟩,
  ⟨reg_HBM_GOLD_SRC1, [(0, 52, .ro), (52, 2, .ro), (54, 6, .ro)]⟩,
  ⟨reg_HBM_GOLD_STATE, [(0, 7, .ro), (16, 24, .rc), (40, 16, .rc)]⟩,
  ⟨reg_HBM_TG_CTL, [(0, 1, .wo), (1, 2, .rw), (3, 2, .rw), (5, 2, .rw), (7, 1, .rw), (8, 8, .rw), (16, 1, .ro)]⟩,
  ⟨reg_HBM_TG_RANGE, [(0, 20, .rw), (32, 20, .rw)]⟩,
  ⟨reg_HBM_TG_SEED, [(0, 31, .rw), (31, 1, .rw)]⟩,
  ⟨reg_HBM_TG_RESULT, [(0, 32, .rc), (32, 16, .rc)]⟩,
  ⟨reg_HBM_TG_FAIL, [(0, 20, .ro), (20, 1, .ro), (21, 4, .ro), (31, 1, .w1c), (32, 32, .ro)]⟩]

/-- Registers of block LLC with the access types of their fields. -/
def rowsLlc : List RegRow := [
  ⟨reg_LLC_WIN_BASE, [(0, 48, .ro), (63, 1, .ro)]⟩,
  ⟨reg_LLC_WIN_SIZE, [(0, 36, .ro), (48, 16, .ro)]⟩,
  ⟨reg_LLC_WIN_ATTR, [(0, 2, .ro), (2, 2, .ro), (4, 3, .ro), (7, 1, .ro), (8, 1, .ro), (9, 1, .ro), (10, 1, .ro), (11, 1, .ro)]⟩,
  ⟨reg_LLC_WIN_GRANT, [(0, 64, .ro)]⟩,
  ⟨reg_LLC_STATUS, [(0, 16, .ro), (16, 16, .ro), (32, 7, .ro), (40, 2, .ro)]⟩,
  ⟨reg_LLC_EVENTS, [(0, 1, .w1c), (1, 1, .w1c), (2, 1, .w1c), (3, 1, .w1c), (4, 1, .w1c), (5, 1, .w1c)]⟩,
  ⟨reg_LLC_CAP, [(0, 15, .ro), (16, 15, .ro), (32, 14, .ro)]⟩,
  ⟨reg_LLC_COUNTS, [(0, 32, .rc), (32, 32, .rc)]⟩,
  ⟨reg_LLC_DEAD_READS, [(0, 32, .rc), (32, 16, .rc), (48, 16, .rc)]⟩,
  ⟨reg_LLC_PREFETCH, [(0, 32, .rc), (32, 16, .rc), (48, 16, .rc)]⟩,
  ⟨reg_LLC_MERGE, [(0, 32, .rc), (32, 16, .rc), (48, 16, .rc)]⟩,
  ⟨reg_LLC_LAT, [(0, 16, .ro), (16, 16, .ro), (32, 16, .ro)]⟩,
  ⟨reg_LLC_ECC, [(0, 16, .rc), (16, 16, .rc), (32, 16, .rc), (48, 16, .rc)]⟩,
  ⟨reg_LLC_ATOM, [(0, 32, .rc), (32, 16, .rc), (48, 16, .rc)]⟩,
  ⟨reg_LLC_RSV, [(0, 21, .rc), (21, 21, .rc), (42, 21, .rc)]⟩,
  ⟨reg_LLC_TX, [(0, 32, .rc), (32, 16, .rc), (48, 6, .ro), (56, 4, .ro)]⟩,
  ⟨reg_LLC_HELD, [(0, 12, .ro), (16, 9, .ro), (32, 10, .ro)]⟩,
  ⟨reg_LLC_REVOKE, [(0, 16, .rc), (16, 16, .ro), (32, 32, .rc)]⟩]

/-- Registers of block TL with the access types of their fields. -/
def rowsTl : List RegRow := [
  ⟨reg_TL_STATUS, [(0, 5, .ro), (8, 4, .ro), (16, 7, .ro), (24, 8, .ro), (32, 3, .ro), (36, 6, .ro)]⟩,
  ⟨reg_TL_FAULT, [(0, 16, .ro), (16, 4, .ro), (20, 3, .ro), (23, 1, .ro), (24, 32, .ro), (56, 1, .ro), (58, 6, .ro)]⟩,
  ⟨reg_TL_FAULT_PC, [(0, 48, .ro), (48, 1, .ro)]⟩,
  ⟨reg_TL_FAULT_ADDR, [(0, 64, .ro)]⟩,
  ⟨reg_TL_BARRIER_TIMEOUT, [(0, 32, .rw)]⟩,
  ⟨reg_TL_RESET_STATUS, [(0, 6, .ro), (8, 2, .ro), (16, 16, .rc)]⟩,
  ⟨reg_TL_EVENTS, [(0, 1, .w1c), (1, 1, .w1c), (2, 1, .w1c), (3, 1, .w1c)]⟩,
  ⟨reg_TL_COUNTS, [(0, 32, .rc), (32, 16, .rc)]⟩,
  ⟨reg_TL_ISSUE, [(0, 48, .rc)]⟩,
  ⟨reg_TL_SECTORS, [(0, 48, .rc)]⟩,
  ⟨reg_TL_MMA_STATUS, [(0, 3, .ro), (3, 1, .ro), (8, 2, .ro), (16, 6, .ro)]⟩,
  ⟨reg_TL_MMA_SLOTFAULT, [(0, 16, .ro), (16, 12, .ro), (31, 1, .w1c), (32, 32, .ro)]⟩,
  ⟨reg_TL_MMA_COUNTS, [(0, 32, .rc), (32, 16, .rc), (48, 16, .rc)]⟩,
  ⟨reg_TL_MMA_WALK, [(0, 32, .rc), (32, 32, .rc)]⟩,
  ⟨reg_TL_MMA_ARRAY, [(0, 48, .rc)]⟩,
  ⟨reg_TL_ARITH, [(0, 32, .rc), (32, 16, .rc), (48, 16, .rc)]⟩,
  ⟨reg_TL_MESH_STATUS, [(0, 12, .ro), (12, 3, .ro), (16, 16, .ro), (32, 16, .ro), (48, 1, .ro), (49, 1, .ro)]⟩,
  ⟨reg_TL_MESH_FAULT, [(0, 16, .ro), (16, 12, .ro), (28, 3, .ro), (31, 1, .w1c), (32, 3, .ro), (40, 24, .ro)]⟩,
  ⟨reg_TL_MESH_COUNTS, [(0, 32, .rc), (32, 16, .rc), (48, 16, .rc)]⟩,
  ⟨reg_TL_MESH_WAIT, [(0, 48, .rc), (48, 16, .rc)]⟩,
  ⟨reg_TL_ARRAY, [(0, 3, .ro), (8, 8, .ro), (16, 13, .ro), (32, 2, .ro)]⟩,
  ⟨reg_TL_L1_HITS, [(0, 32, .rc), (32, 32, .rc)]⟩,
  ⟨reg_TL_L1_WB, [(0, 32, .rc), (32, 16, .rc), (48, 16, .rc)]⟩,
  ⟨reg_TL_L1_ECC, [(0, 16, .rc), (16, 16, .rc), (32, 13, .ro)]⟩,
  ⟨reg_TL_FENCE, [(0, 1, .w1c), (1, 1, .w1c), (8, 6, .ro), (16, 16, .rc), (32, 12, .ro)]⟩,
  ⟨reg_TL_ORDER, [(0, 24, .rc), (24, 24, .rc), (48, 16, .rc)]⟩,
  ⟨reg_TL_REL_WAIT, [(0, 48, .rc)]⟩]

/-- Registers of block PD with the access types of their fields. -/
def rowsPd : List RegRow := [
  ⟨reg_PD_GRANT, [(0, 64, .ro)]⟩,
  ⟨reg_PD_CFG, [(0, 1, .ro)]⟩,
  ⟨reg_PD_STATUS, [(0, 6, .ro), (6, 2, .ro), (8, 3, .ro), (16, 24, .ro)]⟩,
  ⟨reg_PD_SAVED, [(0, 64, .ro)]⟩,
  ⟨reg_PD_OPP, [(0, 8, .rw), (8, 8, .rw), (16, 8, .rw)]⟩]

/-- Registers of block RGN with the access types of their fields. -/
def rowsRgn : List RegRow := [
  ⟨reg_RGN_BYPASS, [(0, 5, .ro), (5, 5, .ro), (10, 5, .ro), (15, 5, .ro), (20, 5, .ro), (25, 5, .ro), (30, 5, .ro), (35, 5, .ro)]⟩,
  ⟨reg_RGN_BYPASS_NEXT, [(0, 5, .ro), (5, 5, .ro), (10, 5, .ro), (15, 5, .ro), (20, 5, .ro), (25, 5, .ro), (30, 5, .ro), (35, 5, .ro), (40, 8, .ro)]⟩,
  ⟨reg_RGN_CLK, [(0, 4, .ro), (4, 4, .ro), (8, 3, .ro), (11, 1, .ro), (12, 5, .ro)]⟩,
  ⟨reg_RGN_PWR, [(0, 16, .ro), (16, 8, .ro), (24, 8, .ro)]⟩,
  ⟨reg_RGN_TRIM, [(0, 8, .ro), (8, 16, .ro)]⟩,
  ⟨reg_RGN_EVENTS_COUNT, [(0, 32, .rc), (32, 16, .rc), (48, 16, .rc)]⟩]

end Sys2Proof.Machine
end

