-- ==== Sys2Proof/Machine/Sparse.lean ====
section
/-! DEFINITION. Machine/Sparse.lean: sparse tables in canonical form. A table lists (key, value) pairs with keys strictly rising and no
value equal to the table's default, so equal tables are equal data. -/

namespace Sys2Proof.Machine

/-- The value at key `k`; the default `d` where no entry lists it. -/
def mget {α : Type} (d : α) : List (Nat × α) → Nat → α
  | [], _ => d
  | (j, v) :: m, k => if j = k then v else mget d m k

/-- `m` without key `k`. -/
def mdel {α : Type} : List (Nat × α) → Nat → List (Nat × α)
  | [], _ => []
  | (j, v) :: m, k => if j = k then mdel m k else (j, v) :: mdel m k

/-- `m` with `v` at key `k`, in order, whatever `v` is. -/
def mins {α : Type} : List (Nat × α) → Nat → α → List (Nat × α)
  | [], k, v => [(k, v)]
  | (j, w) :: m, k, v =>
    if k < j then (k, v) :: (j, w) :: m
    else if j = k then (k, v) :: m
    else (j, w) :: mins m k v

/-- `m` with `v` at key `k`; the default is not listed. -/
def mput {α : Type} [DecidableEq α] (d : α) (m : List (Nat × α)) (k : Nat) (v : α) : List (Nat × α) :=
  if v = d then mdel m k else mins m k v

/-- The canonical form. -/
def mwf {α : Type} [DecidableEq α] (d : α) : List (Nat × α) → Bool
  | [] => true
  | [(_, v)] => decide (v ≠ d)
  | (j, v) :: (k, w) :: m => decide (v ≠ d) && decide (j < k) && mwf d ((k, w) :: m)

/-- Canonical form of memory: addresses strictly rising, no byte that an unlisted address reads as (0, log 1). -/
def Memory.wf (m : List Host.Cell) : Bool := mwf (0 : Byte) m

end Sys2Proof.Machine
end

