-- ==== Sys2Proof/Machine/Ops.lean ====
section
/-! DEFINITION. Machine/Ops.lean: the named operations over registers, tiles, logs, events and replies that every meaning uses. -/

namespace Sys2Proof.Machine

/-! ## Registers of control space -/

/-- Value of element `j` of instance `i` of register `r`. -/
def Part.reg (p : Part) (r : Reg) (i : Nat := 0) (j : Nat := 0) : W64 := mget (BitVec.ofNat 64 r.rst) p.ctl (r.key i j)

/-- The same register set to `v`. -/
def Part.setReg (p : Part) (r : Reg) (v : W64) (i : Nat := 0) (j : Nat := 0) : Part :=
  { p with ctl := mput (BitVec.ofNat 64 r.rst) p.ctl (r.key i j) v }

/-- A field of a register. -/
def Part.rd (p : Part) (f : Fld) (i : Nat := 0) (j : Nat := 0) : Nat := getB (p.reg f.reg i j) f.lo f.wid

/-- A field of a register set to the low bits of `v`. -/
def Part.wr (p : Part) (f : Fld) (v : Nat) (i : Nat := 0) (j : Nat := 0) : Part :=
  p.setReg f.reg (setB (p.reg f.reg i j) f.lo f.wid v) i j

/-- A one-bit field set. -/
def Part.set1 (p : Part) (f : Fld) (i : Nat := 0) (j : Nat := 0) : Part := p.wr f 1 i j

/-- A saturating counter field raised by `n`. -/
def Part.inc (p : Part) (f : Fld) (n : Nat := 1) (i : Nat := 0) (j : Nat := 0) : Part :=
  p.wr f (min (p.rd f i j + n) (2 ^ f.wid - 1)) i j

/-- Whether a fatal error has occurred (R748, R768). -/
def Part.fatal (p : Part) : Bool := p.rd GLOBAL_ELOG_STATUS_FATAL = 1

/-- A command whose effect is a change of the part alone. In package reset every unit is held in reset (R819); after a fatal error the part holds
every unit's state unchanged (R748). -/
def State.onPart (s : State) (f : Part → Part) : Host.Outcome State Fault Refusal :=
  .next (if s.pins.inReset || s.part.fatal then s else { s with part := f s.part })

/-- A command that works whether or not a fatal error has occurred (R748: the queries it lists, host access, time, resets). -/
def State.onAny (s : State) (f : Part → Part) : Host.Outcome State Fault Refusal := .next (if s.pins.inReset then s else { s with part := f s.part })

/-! ## Time and free values -/

/-- The event happens at `t` or later: domain time never goes back (log 5). -/
def Part.at (p : Part) (t : Nat) : Part := { p with now := max p.now t }

/-- 1 microsecond in tenths of a nanosecond. -/
def us (n : Nat) : Nat := n * 10000
/-- 1 millisecond in tenths of a nanosecond. -/
def ms (n : Nat) : Nat := n * 10000000

/-- TICK_TIME.NS (R124). -/
def Part.ns (p : Part) : Nat := p.now / 10

/-- The next free value (log 2). -/
def Part.free (p : Part) : W32 := Config.freeWord p.freeCtr
def Part.nextFree (p : Part) : Part := { p with freeCtr := p.freeCtr + 1 }

/-! ## Numbering (R19) -/

def dieOf (t : Nat) : Nat := t / 256
def rowOf (t : Nat) : Nat := t / 16 % 16
def colOf (t : Nat) : Nat := t % 16
def podOf (t : Nat) : Nat := 16 * dieOf t + 4 * (rowOf t / 4) + colOf t / 4
/-- The 16 tiles of pod `q`. -/
def podTiles (q : Nat) : List Nat :=
  (List.range 16).map fun i => 256 * (q / 16) + 16 * (4 * (q % 16 / 4) + i / 4) + 4 * (q % 4) + i % 4
/-- The pods of region `r`. -/
def regionPods (r : Nat) : List Nat :=
  (List.range 4).map fun i => 16 * (r / 4) + 4 * (2 * (r % 4 / 2) + i / 2) + 2 * (r % 2) + i % 2
/-- Bit `q` of a pod mask. -/
def inMask (m : PodMask) (q : Nat) : Bool := m.getLsbD q
def maskPods (m : PodMask) : List Nat := (List.range 192).filter (inMask m)

/-- The physical column that is bypassed in a row, 8 where none is (R29, R307). Rows are keyed by 16 × die + row. -/
def Part.bypassAt (p : Part) (d r : Nat) : Nat := mget 8 p.repair.bypass (16 * d + r)

/-- Physical column of logical column `c` in a row whose bypassed column is `o` (R29, R307). -/
def physCol (o c : Nat) : Nat := if c < o then c else c + 1

/-- Physical tile identifier of logical tile `t` (R19, R29). -/
def Part.physId (p : Part) (t : Nat) : Nat :=
  272 * dieOf t + 17 * rowOf t + physCol (p.bypassAt (dieOf t) (rowOf t)) (colOf t)

/-- Logical tile at a physical identifier; none at the spare or bypassed position of its row. -/
def Part.logicalOf (p : Part) (phys : Nat) : Option Nat :=
  let d := phys / 272
  let r := phys % 272 / 17
  let c := phys % 17
  let o := p.bypassAt d r
  if c = o then none else some (256 * d + 16 * r + (if c < o then c else c - 1))

/-! ## Tiles, groups, slices, requests -/

def Part.tile (p : Part) (t : Nat) : Tile := mget {} p.tiles t
def Part.setTile (p : Part) (t : Nat) (x : Tile) : Part := { p with tiles := mput {} p.tiles t x }
def Part.modTile (p : Part) (t : Nat) (f : Tile → Tile) : Part := p.setTile t (f (p.tile t))
def Tile.group (x : Tile) (g : Nat) : Group := mget {} x.groups g
def Tile.setGroup (x : Tile) (g : Nat) (y : Group) : Tile := { x with groups := mput {} x.groups g y }
def Part.group (p : Part) (t g : Nat) : Group := (p.tile t).group g
def Part.setGroup (p : Part) (t g : Nat) (y : Group) : Part := p.setTile t ((p.tile t).setGroup g y)
def Part.modGroup (p : Part) (t g : Nat) (f : Group → Group) : Part := p.setGroup t g (f (p.group t g))
def Tile.block (x : Tile) (b : Nat) : Block := mget {} x.blocks b
def Tile.setBlock (x : Tile) (b : Nat) (y : Block) : Tile := { x with blocks := mput {} x.blocks b y }
def Part.slice (p : Part) (i : Nat) : Slice := mget {} p.slices i
def Part.setSlice (p : Part) (i : Nat) (x : Slice) : Part := { p with slices := mput {} p.slices i x }
def Part.modSlice (p : Part) (i : Nat) (f : Slice → Slice) : Part := p.setSlice i (f (p.slice i))
def Part.router (p : Part) (r : Nat) : Router := mget {} p.routers r
def Part.setRouter (p : Part) (r : Nat) (x : Router) : Part := { p with routers := mput {} p.routers r x }
def Part.port (p : Part) (i : Nat) : Port := mget {} p.ports i
def Part.setPort (p : Part) (i : Nat) (x : Port) : Part := { p with ports := mput {} p.ports i x }
def Part.region (p : Part) (i : Nat) : Region := mget {} p.power.regions i
def Part.setRegion (p : Part) (i : Nat) (x : Region) : Part :=
  { p with power := { p.power with regions := mput {} p.power.regions i x } }
def Part.req (p : Part) (id : Nat) : Option Req := p.net.find? (fun r => r.id = id)
def Part.setReq (p : Part) (q : Req) : Part := { p with net := p.net.map fun r => if r.id = q.id then q else r }
def Part.dropReq (p : Part) (id : Nat) : Part := { p with net := p.net.filter fun r => r.id ≠ id }
def Part.emit (p : Part) (o : Out) : Part := { p with out := p.out ++ [o] }
/-- All slices, all tiles, all pods: folds over the units of the part. -/
def foldN (n : Nat) (p : Part) (f : Nat → Part → Part) : Part := (List.range n).foldl (fun q i => f i q) p
def foldL {α : Type} (l : List α) (p : Part) (f : α → Part → Part) : Part := l.foldl (fun q i => f i q) p

/-! ## Device -/

/-- This device's ID (R65). -/
def Part.dev (p : Part) : Nat := p.rd GLOBAL_DEV_DEV_ID
def Part.stage (p : Part) : Nat := p.rd HUSK_STATUS_STAGE
def Part.attached (p : Part) : Bool := p.rd UCI_STATUS_ATTACHED = 1
def Part.tickNo (p : Part) : Nat := p.rd TICK_NUMBER_NUMBER
/-- Whether device `d` is a member of the domain (R591). -/
def Part.member (p : Part) (d : Nat) : Bool := p.rd GLOBAL_DEV_JOINED = 1 && (p.reg reg_GLOBAL_MEMBERS).getLsbD d

/-! ## Replies, events, error log -/

/-- Key of a function's queue. -/
def qkey (fn q : Nat) : Nat := 32 * fn + q
def Part.sq (p : Part) (fn q : Nat) : SubQ := mget {} p.host.sqs (qkey fn q)
def Part.setSq (p : Part) (fn q : Nat) (x : SubQ) : Part :=
  { p with host := { p.host with sqs := mput {} p.host.sqs (qkey fn q) x } }
def Part.cq (p : Part) (fn q : Nat) : CompQ := mget {} p.host.cqs (qkey fn q)
def Part.setCq (p : Part) (fn q : Nat) (x : CompQ) : Part :=
  { p with host := { p.host with cqs := mput {} p.host.cqs (qkey fn q) x } }

/-- Entries of a completion ring that are in use: reserved, or written and not reported consumed (R652). -/
def CompQ.used (c : CompQ) : Nat := c.reserved + (c.written - c.consumed)
def CompQ.room (c : CompQ) : Bool := c.exists_ && decide (c.used < 2 ^ c.log2)

/-- PHASE of entry `k` of a ring of `m` entries (R651). -/
def phaseOf (k m : Nat) : Bool := (k / m + 1) % 2 = 1

/-- MSI-X message of a vector; none while detached (R637). -/
def Part.msix (p : Part) (fn vector : Nat) : Part := if p.attached then p.emit (.msix fn vector) else p

/-- Entry number `written` of completion queue `q` of `fn` is written (R651). -/
def Part.writeCq (p : Part) (fn q : Nat) (r : Reply) : Part :=
  let c := p.cq fn q
  let m := 2 ^ c.log2
  (p.setCq fn q { c with written := c.written + 1 }).emit (.reply r (some q) (c.written % m) (phaseOf c.written m))

/-- The completion queue of `fn` that receives its events (R653). -/
def Part.eventCq (p : Part) (fn : Nat) : Option Nat :=
  (List.range 32).find? fun q => (p.cq fn q).exists_ && (p.cq fn q).events

/-- One event entry written to `q`, and its vector raised. -/
def Part.putEvent (p : Part) (fn q code detail : Nat) : Part :=
  (p.writeCq fn q { fn, sq := 0, tag := 0, gen := 0, status := BitVec.ofNat 16 code, event := true,
                    detail := BitVec.ofNat 64 detail, time := p.ns }).msix fn (p.cq fn q).vector

/-- An event is posted to a function (R653, R669): counted by kind while detached (R637), dropped and counted where no queue has room;
the next event written after a drop is EVENTS_LOST. -/
def Part.event (p : Part) (fn code detail : Nat) : Part :=
  if !p.attached then
    { p with host := { p.host with evCount := mput 0 p.host.evCount code (mget 0 p.host.evCount code + 1) } }
  else
    let lost := mget 0 p.host.evDropped fn
    let drop (p : Part) : Part :=
      { p with host := { p.host with evDropped := mput 0 p.host.evDropped fn (mget 0 p.host.evDropped fn + 1) } }
    match p.eventCq fn with
    | none => drop p
    | some q =>
      if !(p.cq fn q).room then drop p
      else if lost = 0 then p.putEvent fn q code detail
      else
        let p := { p with host := { p.host with evDropped := mput 0 p.host.evDropped fn 0 } }
        let p := p.putEvent fn q 0x200 lost
        if (p.cq fn q).room then p.putEvent fn q code detail else drop p

/-- TICK_EVENTS bits that a change newly sets are posted in one TICK_EVENT (R123, R669). -/
def Part.tickEvents (p : Part) (f : Part → Part) : Part :=
  let q := f p
  let new := (q.reg reg_TICK_EVENTS &&& ~~~(p.reg reg_TICK_EVENTS)).toNat
  if new = 0 then q else q.event 0 0x207 (new + 65536 * (q.tickNo % 2 ^ 48))

/-- The owner of the work an error concerns (R462): origin (0 tile, 1 copy engine, 2 firmware), unit, function, step program. -/
structure Owner where
  origin : Nat := 0
  unit   : Nat := 0
  fn     : Nat := 0
  step   : Bool := false
deriving DecidableEq, Repr

/-- An error-log entry (R749, R751): written at NEXT, FAULT_LOGGED posted with its index. Repair actions and fatal entries are also
queued for the repair records (R750). -/
def Part.log (p : Part) (cls level kind unit code action detail : Nat) (o : Owner := {}) : Part :=
  let n := p.rd GLOBAL_ELOG_STATUS_NEXT
  let w0 : W64 := setB (setB (setB (setB 0 0 48 p.ns) 48 2 cls) 50 3 level) 63 1 1
  let w1 : W64 := setB (setB (setB 0 0 48 p.tickNo) 48 4 kind) 56 8 action
  let w2 : W64 := setB (setB (setB (setB (setB (setB 0 0 16 unit) 16 16 code) 32 3 o.origin) 35 12 o.unit) 47 6 o.fn) 53 1 (b2n o.step)
  let w3 : W64 := BitVec.ofNat 64 detail
  let p := p.setReg reg_GLOBAL_ELOG0 w0 0 n
  let p := p.setReg reg_GLOBAL_ELOG1 w1 0 n
  let p := p.setReg reg_GLOBAL_ELOG2 w2 0 n
  let p := p.setReg reg_GLOBAL_ELOG3 w3 0 n
  let p := p.wr GLOBAL_ELOG_STATUS_NEXT (n + 1)
  let p := p.inc GLOBAL_ELOG_STATUS_ENTRIES
  let p := if n = 127 then p.set1 GLOBAL_ELOG_STATUS_WRAPPED else p
  let p := if cls = 3 || (4 ≤ action && action ≠ 16) then { p with repair := { p.repair with due := p.repair.due ++ [(w0, w1, w2, w3)] } } else p
  p.event 0 0x209 n

/-- A 16-bit status or fault code with its name (R668 and the fault tables of the chapters). -/
def stOK := 0
def stBadHeader := 0x100
def stUnknownOpcode := 0x101
def stClassDenied := 0x102
def stBadParam := 0x103
def stBadState := 0x104
def stNoResource := 0x105
def stLaunchResources := 0x106
def stWindowConflict := 0x107
def stWaysInUse := 0x108
def stImageDigest := 0x109
def stImageInvalid := 0x10A
def stSchedInvalid := 0x10B
def stHostAbort := 0x10C
def stFencePeerLost := 0x10D
def stTargetUnknown := 0x10E
def stForwardLost := 0x10F
def stAborted := 0x110
def stAuthFail := 0x111

/-- The record a command was started from, by function, submission queue and generation. -/
def isRec (fn sq : Nat) (gen : W32) (r : CmdRec) : Bool := r.fn = fn && r.q = sq && r.gen = gen

/-- A status reply of a command that came through a submission queue (R650–R652): held while detached (R637), not written for a
function reset since the command started (R635). -/
def Part.queueReply (p : Part) (fn sq : Nat) (r : Reply) (notify silent : Bool) : Part :=
  let q := (p.sq fn sq).cq
  let c := p.cq fn q
  let p := p.setCq fn q { c with reserved := c.reserved - 1 }
  if silent then p
  else if !p.attached then
    if p.host.held.length < 4096 then
      let p := { p with host := { p.host with held := p.host.held ++ [r] } }
      p.wr UCI_STATUS_HELD_REPLIES p.host.held.length
    else { p with host := { p.host with heldDropped := p.host.heldDropped + 1 } }
  else
    let p := p.writeCq fn q r
    if notify then p.msix fn (p.cq fn q).vector else p

/-- The 32 bytes of a status reply (R650). -/
def Reply.bytes (r : Reply) (phase : Bool) : List Byte :=
  leBytes 2 r.status.toNat ++ leBytes 1 (b2n phase + 2 * b2n r.event) ++ leBytes 1 r.sq ++ leBytes 4 r.tag.toNat ++ leBytes 8 r.detail.toNat ++
  leBytes 8 r.time ++ leBytes 4 r.gen.toNat ++ leBytes 2 r.op.toNat ++ leBytes 1 r.fn ++ leBytes 1 0

/-- The reply of a command (R650): to the sender of a forwarded packet, to the management port with the alert of R814, or to the completion queue of its
submission queue; its started record, if any, is retired. `data` is its output (R649). -/
def Part.reply (p : Part) (c : Issue) (status detail : Nat) (data : List Byte := []) : Part :=
  let r : Reply := { op := c.op, fn := c.fn.val, sq := c.sq, tag := c.tag, gen := c.gen, status := BitVec.ofNat 16 status, event := false,
                     detail := BitVec.ofNat 64 detail, time := p.ns }
  match c.origin with
  | some d =>
    let p := if data.isEmpty then p else p.emit (.output c.fn.val data)
    p.emit (.forwardReply d.val c.tag.toNat (BitVec.ofNat 16 status) (BitVec.ofNat 64 detail))
  | none =>
    match c.cls with
    | .m | .t =>
      let rec? := p.host.started.find? (isRec c.fn.val c.sq c.gen)
      let p := { p with host := { p.host with started := p.host.started.filter fun r => !isRec c.fn.val c.sq c.gen r } }
      let p := if data.isEmpty then p else p.emit (.output c.fn.val data)
      p.queueReply c.fn.val c.sq r c.notify ((rec?.map (·.silent)).getD false)
    | .b =>
      let p : Part := { p with mgmt := { p.mgmt with replyReady := true, reply := r.bytes false ++ data, replySeq := 0,
                                                     mgAlertN := p.mgmt.i3c && p.mgmt.mgAlertN } }
      if p.mgmt.i3c then p.emit .mgmtAlert else p
    | .d | .l => (if data.isEmpty then p else p.emit (.output c.fn.val data)).emit (.reply r none 0 false)

end Sys2Proof.Machine
end

