-- ==== Sys2Proof/Machine/Mem.lean ====
section
/-! DEFINITION. Machine/Mem.lean: the address map, windows and their checks, home slices, what is stored at an address (01, 08). Data are
keyed by the address they are stored at: HBM and pinned-buffer lines under their own address, control-window lines under their backing
address (R828). -/

namespace Sys2Proof.Machine

def hbmEnd : Nat := 0x9000000000
def ctlBase : Nat := 0xA000000000
def ctlEnd : Nat := 0xA040000000
def pinBase : Nat := 0xA100000000
def arrBase : Nat := 0x7F0000000000
def arrEnd : Nat := 0x7F0060000000
def csBase : Nat := 0xFF0000000000
def csEnd : Nat := 0xFF0004000000

/-- L of R401: ways locked, read from WAYS_LOCKED. -/
def Part.lockL (p : Part) : Nat := ((List.range 16).filter fun w => (p.rd LLC_STATUS_WAYS_LOCKED).testBit w).length
/-- End of the pinned-buffer aperture that is locked (R52, R401). -/
def Part.pinEnd (p : Part) : Nat := pinBase + p.lockL * 0x4000000

def inHbm (a : Nat) : Bool := a < hbmEnd
def inCtl (a : Nat) : Bool := ctlBase ≤ a && a < ctlEnd
def Part.inPin (p : Part) (a : Nat) : Bool := pinBase ≤ a && a < p.pinEnd
def inArr (a : Nat) : Bool := arrBase ≤ a && a < arrEnd
def inCs (a : Nat) : Bool := csBase ≤ a && a < csEnd
/-- The HBM range in force: 552 GiB once a lost stack has been migrated (R550). -/
def Part.hbmIn (p : Part) (a : Nat) : Bool := a < (if p.hbm.map736 then 0x8A00000000 else hbmEnd)
/-- Addresses with a home slice. -/
def Part.hasHome (p : Part) (a : Nat) : Bool := p.hbmIn a || inCtl a || p.inPin a

/-- Where an address leads (R13–R16, R49, R50, R52, R54): nowhere, this device at a local address, another device. -/
inductive Route where
  | reject
  | here (a : Nat)
  | away (dev a : Nat)
deriving DecidableEq, Repr

/-- Route of a 64-bit address (R13–R16, R54). The pinned aperture of another device is checked there. -/
def Part.route (p : Part) (w : W64) : Route :=
  let g := getB w 56 1
  let dev := getB w 48 8
  let a := getB w 0 48
  if getB w 57 7 ≠ 0 || 63 < dev || (g = 0 && dev ≠ 0) then .reject
  else if g = 1 && dev ≠ p.dev then
    if inHbm a || inCtl a || (pinBase ≤ a && a < pinBase + 0x30000000) then .away dev a else .reject
  else if p.hasHome a || inArr a || inCs a then .here a else .reject

/-! ## Windows (R369–R372, R376) -/

def Part.winValid (p : Part) (n : Nat) : Bool := p.rd LLC_WIN_BASE_VALID 0 n = 1
def Part.winBase (p : Part) (n : Nat) : Nat := p.rd LLC_WIN_BASE_BASE 0 n
def Part.winSize (p : Part) (n : Nat) : Nat := 4096 * p.rd LLC_WIN_SIZE_SIZE_4K 0 n
def Part.winWays (p : Part) (n : Nat) : Nat := p.rd LLC_WIN_SIZE_WAYS 0 n
def Part.winType (p : Part) (n : Nat) : Nat := p.rd LLC_WIN_ATTR_TYPE 0 n
def Part.winShared (p : Part) (n : Nat) : Bool := p.rd LLC_WIN_ATTR_SHARED_IMM 0 n = 1
def Part.winStrict (p : Part) (n : Nat) : Bool := p.rd LLC_WIN_ATTR_STRICT 0 n = 1
def Part.winGrant (p : Part) (n : Nat) : Nat := p.rd LLC_WIN_GRANT_FN 0 n
/-- Backing address of a CONTROL window (R828). -/
def Part.winBacking (p : Part) (n : Nat) : Nat := p.rd HBM_GOLD_SRC0_ADDR 0 n

/-- The window that covers an address, one being destroyed included. -/
def Part.covers (p : Part) (n a : Nat) : Bool := p.winValid n && decide (p.winBase n ≤ a) && decide (a < p.winBase n + p.winSize n)
def Part.winAt (p : Part) (a : Nat) : Option Nat := (List.range 64).find? fun n => p.covers n a
/-- The window that admits new accesses to an address (R376). -/
def Part.winOpen (p : Part) (a : Nat) : Option Nat := (p.winAt a).filter fun n => !p.closing.contains n

/-- An access of `n` bytes at `a` for function `fn` lies wholly inside one granted window (R369, R370); a write is not admitted to a
SHARED_IMM window (R371). -/
def Part.granted (p : Part) (fn a n : Nat) (write : Bool) : Bool :=
  match p.winOpen a with
  | none => false
  | some w => p.covers w (a + n - 1) && (p.winGrant w).testBit fn && !(write && p.winShared w)

/-! ## Home slices (R55–R58, R365–R367, R757, R758) -/

/-- Rank of `i` among the keys of 0 … n − 1. -/
def rankOf (n : Nat) (key : Nat → Nat) (i : Nat) : Nat :=
  ((List.range n).filter fun j => key j < key i || (key j = key i && j < i)).length

/-- Home slice of an address: the fixed hash of its line, or bits [29:22] of a control-window address. -/
def homeSlice (a : Nat) : Nat :=
  if inCtl a then a / 0x400000 % 256
  else rankOf 256 (Config.sliceKey (a / 0x20000)) (a / 256 % 256)

/-- The slice that serves an address: its home slice, or the slice it is remapped to (R758). -/
def Part.served (p : Part) (a : Nat) : Nat :=
  let h := homeSlice a
  mget h p.repair.sliceMap h % 256

/-- Set index (R366, R367). -/
def setOf (a : Nat) : Nat := if inCtl a then a / 256 % 1024 else a / 0x20000 % 1024

def lineOf (a : Nat) : Nat := a / 256 * 256
def sectorOf (a : Nat) : Nat := a / 64 * 64

/-- A 1 MiB block lies under the 736-channel map: its stack is lost and it has been moved (R550, R552). -/
def Part.moved736 (p : Part) (b : Nat) : Bool := p.hbm.map736 || p.hbm.moved.contains b

/-- The pseudo-channel of an HBM address: a rank in its 1 MiB block, folded over 768 channels, or over the 736 that remain, which keep their numbers
(R57, R550, R829). -/
def Part.channelOf (p : Part) (a : Nat) : Nat :=
  let b := a / 0x100000
  let small := p.moved736 b
  let n := if small then 736 else 768
  let r := rankOf 4096 (Config.channelKey small b) (a / 256 % 4096) % n
  let c := (((List.range n).find? fun c => rankOf n (Config.channelOrder small b) c = r)).getD 0
  let gone := p.rd HBM_MIGRATE_LOST_STACK
  if small && 32 * gone ≤ c then c + 32 else c

/-! ## What is stored -/

/-- The address a line's data is stored at (R828): a control-window address maps into its window's backing range. -/
def Part.phys (p : Part) (a : Nat) : Nat :=
  if inCtl a then
    match p.winAt a with
    | some w => p.winBacking w + (a - p.winBase w)
    | none => a
  else a

/-- A byte as its home slice holds it: from a dirty sector of a slice, else from HBM or the pinned buffer. A dead line reads as zero. -/
def Part.byteAt (p : Part) (x : Nat) : Byte :=
  if p.dead.contains (lineOf x) then 0
  else match p.dirty.find? (fun c => c.1 = x) with
    | some c => c.2
    | none => mget 0 p.mem x

/-- Bytes of memory are written (HBM or pinned buffer contents). -/
def Part.putMems (p : Part) (l : List (Nat × Byte)) : Part := { p with mem := l.foldl (fun m c => mput 0 m c.1 c.2) p.mem }
/-- A byte of a dirty sector held by a slice is written. -/
def Part.putDirtys (p : Part) (l : List (Nat × Byte)) : Part := { p with dirty := l.foldl (fun m c => mins m c.1 c.2) p.dirty }

/-- `n` bytes stored at `x`. -/
def Part.bytesAt (p : Part) (x n : Nat) : List Byte := (List.range n).map fun i => p.byteAt (x + i)

def insNat (l : List Nat) (x : Nat) : List Nat := if l.contains x then l else l ++ [x]
def delNat (l : List Nat) (x : Nat) : List Nat := l.filter (· ≠ x)

/-- A sector is poisoned; the list is by stored sector address. -/
def Part.poisoned (p : Part) (x : Nat) : Bool := p.poison.contains (sectorOf x)
def Part.isDead (p : Part) (x : Nat) : Bool := p.dead.contains (lineOf x)

/-- The four sectors of the line at stored address `x` written back from the slice into memory (R381); poison goes with them. -/
def Part.writeBack (p : Part) (x : Nat) : Part :=
  let l := lineOf x
  let here (c : Nat × Byte) : Bool := decide (l ≤ c.1) && decide (c.1 < l + 256)
  let p := p.putMems (p.dirty.filter here)
  { p with dirty := p.dirty.filter fun c => !here c }

/-- The dirty bytes of one line dropped without write-back. -/
def Part.dropDirty (p : Part) (x : Nat) : Part :=
  let l := lineOf x
  { p with dirty := p.dirty.filter fun c => !(decide (l ≤ c.1) && decide (c.1 < l + 256)) }

/-! ## Owners (R370, R462) -/

/-- Function whose work a tile runs: 0 in the step program. -/
def Part.kernel (p : Part) (k : Nat) : Option Kernel := mget none p.sched.kernels k
def Part.tileFn (p : Part) (t : Nat) : Nat :=
  match (p.tile t).work with
  | .kernel k => match p.kernel k with
    | some x => x.fn
    | none => 0
  | _ => 0
def Part.tileStep (p : Part) (t : Nat) : Bool := (p.tile t).work = .step
def Part.tileOwner (p : Part) (t : Nat) : Owner := { origin := 0, unit := t, fn := p.tileFn t, step := p.tileStep t }

end Sys2Proof.Machine
end

