-- ==== Sys2Proof/Machine/HbmOps.lean ====
section
/-! DEFINITION. Machine/HbmOps.lean: what the HBM controllers do when a stored sector is read, rows that fail, opening a weight repair (12). -/

namespace Sys2Proof.Machine

/-- 24 hours and 1 hour in tenths of a nanosecond. -/
def hour : Nat := 36000000000000

/-- A stack is lost and not yet migrated (R549). -/
def Part.stackGone (p : Part) (st : Nat) : Bool := p.hbm.lost = some st && !p.hbm.map736

/-- The marks that a line leaving its slice meets in HBM: where the sector was not rewritten the mark now shows (R536, R537). -/
def Part.settleMarks (p : Part) (x : Nat) : Part :=
  let here (s : Nat) : Bool := lineOf s = lineOf x
  if !p.hbm.marks.any here then p
  else
    let shown := (p.hbm.marks.filter here).filter fun s => !(p.dirty.any fun c => sectorOf c.1 = s)
    { p with poison := shown.foldl insNat p.poison, hbm := { p.hbm with marks := p.hbm.marks.filter fun s => !here s } }

/-- A failing row (R546, R547): its copy to a spare row begins, or PAGE_RETIRE is posted for each page of its lines when the remap table
is full. -/
def Part.rowFails (p : Part) (pc row : Nat) : Part :=
  let used := (p.hbm.remap.filter fun r => r.1 = pc).length + (p.hbm.copying.filter fun r => r.1 = pc).length
  if p.hbm.remap.contains (pc, row) || p.hbm.copying.contains (pc, row) then p
  else if used < 64 then { p with hbm := { p.hbm with copying := p.hbm.copying ++ [(pc, row)] } }
  else
    let pages := ((Config.rowLines pc row).map fun l => l / 65536).foldl insNat []
    (pages.foldl (fun p g => p.event 0 0x203 (g * 65536)) p).set1 HBM_EVENTS_REMAP_FULL (pc / 32)

/-- A corrected error of a row, met in sector `sec` (R545, R749): the row fails when its corrected errors of 24 hours reach ROW_CE_LIMIT; the crossing
is logged. -/
def Part.rowCorrected (p : Part) (pc row sec : Nat) : Part :=
  let recent := (p.hbm.ueTimes.filter fun c => p.now < c.2.2 + 24 * hour) ++ [(pc, row, p.now)]
  let p := { p with hbm := { p.hbm with ueTimes := recent } }
  let n := (recent.filter fun c => c.1 = pc && c.2.1 = row).length
  let limit := p.rd HBM_CFG_ROW_CE_LIMIT
  if n < limit then p
  else if n = max 1 limit then (p.log 0 5 7 (pc / 32) 0 1 sec).rowFails pc row
  else p.rowFails pc row

/-- An uncorrectable sector outside a POISON mark is counted, captured and logged (R535, R560, R830). -/
def Part.ueFound (p : Part) (sec pc : Nat) (o : Owner) : Part :=
  let st := pc / 32
  let p := (p.inc HBM_ECC_UE 1 st).set1 HBM_EVENTS_UE st
  let p := if p.rd HBM_UE_ADDR_VALID st = 1 then p
    else ((p.wr HBM_UE_ADDR_ADDR sec st).wr HBM_UE_ADDR_PC (pc % 32) st).wr HBM_UE_ADDR_VALID 1 st
  p.log 1 5 7 st 0 0 sec o

/-- One stored sector is read (R534, R535, R549): the error met there is counted and poisons the sector when it cannot be corrected. `o` owns the work (R830). -/
def Part.hbmRead (p : Part) (x : Nat) (err : EccErr) (o : Owner := {}) : Part :=
  let pc := p.channelOf x
  let st := pc / 32
  let sec := sectorOf x
  let row := Config.rowOf (lineOf x)
  if p.stackGone st then { p with poison := insNat p.poison sec }
  else if p.poison.contains sec then p.inc HBM_ECC_POISON_READS 1 st
  else match err with
    | .ce => (p.inc HBM_ECC_CE 1 st).rowCorrected pc row sec
    | .ue | .tagUe => ({ p.ueFound sec pc o with poison := insNat p.poison sec } : Part).rowFails pc row
    | .ok => p

/-- Open repairs of a window are counted in HBM_GOLD_STATE.PENDING (R562). -/
def Part.goldPending (p : Part) (w : Nat) : Part :=
  p.wr HBM_GOLD_STATE_PENDING (p.hbm.repairs.filter fun r => r.win = w).length 0 w

/-- Kind of golden source `i` of a window (R562). -/
def Part.goldKindOf (p : Part) (w i : Nat) : Nat := if i = 0 then p.rd HBM_GOLD_SRC0_KIND 0 w else p.rd HBM_GOLD_SRC1_KIND 0 w

/-- The repair tries source `i` or the next one that exists; with none left it waits (R542). -/
def Part.trySource (p : Part) (r : BlockRepair) (i : Nat) : BlockRepair :=
  match ([0, 1].filter fun k => decide (i ≤ k) && decide (p.goldKindOf r.win k ≠ 0)) with
  | k :: _ => { r with src := k, since := p.now, idle := false }
  | [] => { r with since := p.now, idle := true }

/-- A repair of a block as it opens; its timer runs from the first error. -/
def Part.newRepair (p : Part) (b w t0 : Nat) : BlockRepair := p.trySource { block := b, win := w, t0 } 0

/-- A poisoned read of a SHARED_IMM window opens the repair of its 4 KiB block (R539); at most 64 are open, a further one waits with its
timer running. -/
def Part.openRepair (p : Part) (w a : Nat) : Part :=
  let b := a / 4096 * 4096
  if p.hbm.repairs.any (fun r => r.block = b) || p.hbm.waiting.any (fun r => r.1 = b) then p
  else if p.hbm.repairs.length < 64 then
    { p with hbm := { p.hbm with repairs := p.hbm.repairs ++ [p.newRepair b w p.now] } }.goldPending w
  else { p with hbm := { p.hbm with waiting := p.hbm.waiting ++ [(b, w, p.now)] } }

/-- A function that consumed poisoned data of a block is recorded for WEIGHT_REPAIRED (R540, R542). -/
def Part.recordFn (p : Part) (a fn : Nat) : Part :=
  let b := a / 4096 * 4096
  { p with hbm := { p.hbm with repairs := p.hbm.repairs.map fun r => if r.block = b then { r with fns := insNat r.fns fn } else r } }

end Sys2Proof.Machine
end

