-- ==== Sys2Proof/Machine/Float.lean ====
section
/-! DEFINITION. Machine/Float.lean: number formats and SIMT arithmetic (05). A finite value is held exactly as sign, integer and power of two,
and rounded once. -/

namespace Sys2Proof.Machine

/-- A floating-point value: NaN, an infinity, or (−1)^neg × m × 2^e (zero keeps its sign). -/
inductive FV where
  | nan
  | inf (neg : Bool)
  | fin (neg : Bool) (m : Nat) (e : Int)
deriving DecidableEq, Repr

/-- Exponent bits, mantissa bits, bias; whether the top exponent holds infinities (R245, R246, R248, R249). -/
structure FmtP where
  eb   : Nat
  mb   : Nat
  bias : Nat
  infs : Bool
deriving DecidableEq, Repr

def pFp32 : FmtP := ⟨8, 23, 127, true⟩
def pBf16 : FmtP := ⟨8, 7, 127, true⟩
def pE4m3 : FmtP := ⟨4, 3, 7, false⟩
def pE5m2 : FmtP := ⟨5, 2, 15, true⟩

/-- Value of an encoding (R246, R248, R249). -/
def decFloat (f : FmtP) (w : Nat) : FV :=
  let m := w % 2 ^ f.mb
  let e := w / 2 ^ f.mb % 2 ^ f.eb
  let neg := w / 2 ^ (f.mb + f.eb) % 2 = 1
  if e = 2 ^ f.eb - 1 && (if f.infs then true else m = 2 ^ f.mb - 1) then
    if f.infs && m = 0 then .inf neg else .nan
  else if e = 0 then .fin neg m (1 - (f.bias : Int) - f.mb)
  else .fin neg (2 ^ f.mb + m) ((e : Int) - f.bias - f.mb)

/-- `m × 2^s` truncated to an integer, and whether it must be rounded up: to nearest with ties to even, or toward zero (R264). -/
def roundShift (r : RMode) (m : Nat) (s : Int) : Nat :=
  if s ≥ 0 then m * 2 ^ s.toNat
  else
    let k := (-s).toNat
    let q := m / 2 ^ k
    let rem := m % 2 ^ k
    let half := 2 ^ (k - 1)
    match r with
    | .rz => q
    | .rn => if rem > half || (rem = half && q % 2 = 1) then q + 1 else q

/-- A magnitude `m × 2^e` rounded to `mb` mantissa bits with smallest exponent that of the format, range unbounded above (R265): the
rounded integer and the exponent of its unit. -/
def roundMag (r : RMode) (f : FmtP) (m : Nat) (e : Int) : Nat × Int :=
  if m = 0 then (0, 0)
  else
    let lead : Int := (Nat.log2 m : Int) + e
    let u : Int := max (lead - f.mb) (1 - (f.bias : Int) - f.mb)
    let q := roundShift r m (e - u)
    if q = 2 ^ (f.mb + 1) then (2 ^ f.mb, u + 1) else (q, u)

/-- Encoding of a rounded magnitude, without sign; the exponent field may exceed the format (overflow). -/
def encMag (f : FmtP) (q : Nat) (u : Int) : Nat :=
  if q < 2 ^ f.mb then q
  else (u + f.mb + f.bias).toNat * 2 ^ f.mb + (q - 2 ^ f.mb)

/-- Encoding of the largest finite magnitude. -/
def maxFinite (f : FmtP) : Nat := if f.infs then (2 ^ f.eb - 1) * 2 ^ f.mb - 1 else 2 ^ (f.eb + f.mb) - 2

def signBit (f : FmtP) (neg : Bool) : Nat := if neg then 2 ^ (f.eb + f.mb) else 0
def infCode (f : FmtP) : Nat := (2 ^ f.eb - 1) * 2 ^ f.mb

/-- Canonical NaN of a format (R247). -/
def canonNan (f : FmtP) : Nat := if f.infs then (2 ^ f.eb - 1) * 2 ^ f.mb + 2 ^ (f.mb - 1) else 2 ^ (f.eb + f.mb) - 1

/-- FP32 result of an exact value, rounded once to nearest even; beyond the range it is an infinity (R254, R262). -/
def enc32 (v : FV) : W32 :=
  match v with
  | .nan => BitVec.ofNat 32 (canonNan pFp32)
  | .inf n => BitVec.ofNat 32 (signBit pFp32 n + infCode pFp32)
  | .fin n m e =>
    let (q, u) := roundMag .rn pFp32 m e
    BitVec.ofNat 32 (signBit pFp32 n + min (encMag pFp32 q u) (infCode pFp32))

def dec32 (w : W32) : FV := decFloat pFp32 w.toNat

/-- An exact sum; the sum of opposite values, and of zeros of unlike sign, is +0 (R254). -/
def fvAdd (a b : FV) : FV :=
  match a, b with
  | .nan, _ => .nan
  | _, .nan => .nan
  | .inf x, .inf y => if x = y then .inf x else .nan
  | .inf x, .fin _ _ _ => .inf x
  | .fin _ _ _, .inf y => .inf y
  | .fin n1 m1 e1, .fin n2 m2 e2 =>
    let e := min e1 e2
    let x : Int := (m1 * 2 ^ (e1 - e).toNat : Nat)
    let y : Int := (m2 * 2 ^ (e2 - e).toNat : Nat)
    let s := (if n1 then -x else x) + (if n2 then -y else y)
    if s = 0 then .fin (n1 && n2) 0 0 else .fin (s < 0) s.natAbs e

/-- An exact product (R254). -/
def fvMul (a b : FV) : FV :=
  match a, b with
  | .nan, _ => .nan
  | _, .nan => .nan
  | .inf x, .inf y => .inf (x != y)
  | .inf x, .fin n m _ => if m = 0 then .nan else .inf (x != n)
  | .fin n m _, .inf y => if m = 0 then .nan else .inf (n != y)
  | .fin n1 m1 e1, .fin n2 m2 e2 => .fin (n1 != n2) (m1 * m2) (e1 + e2)

def fadd32 (a b : W32) : W32 := enc32 (fvAdd (dec32 a) (dec32 b))
def fmul32 (a b : W32) : W32 := enc32 (fvMul (dec32 a) (dec32 b))
/-- FMA rounds once. -/
def fma32 (a b c : W32) : W32 := enc32 (fvAdd (fvMul (dec32 a) (dec32 b)) (dec32 c))

/-- Order of two values that are not NaN: `x < y`. Zeros of either sign are equal. -/
def fvLt (a b : FV) : Bool :=
  match a, b with
  | .nan, _ => false
  | _, .nan => false
  | .inf x, .inf y => x && !y
  | .inf x, .fin _ _ _ => x
  | .fin _ _ _, .inf y => !y
  | .fin n1 m1 e1, .fin n2 m2 e2 =>
    let e := min e1 e2
    let x : Int := (m1 * 2 ^ (e1 - e).toNat : Nat)
    let y : Int := (m2 * 2 ^ (e2 - e).toNat : Nat)
    (if n1 then -x else x) < (if n2 then -y else y)

def fvEq (a b : FV) : Bool :=
  match a, b with
  | .nan, _ => false
  | _, .nan => false
  | a, b => !fvLt a b && !fvLt b a

/-! ## Special functions (R255) -/

/-- `a × 2^x ≥ b × 2^y`, exactly. -/
def geScaled (a : Nat) (x : Int) (b : Nat) (y : Int) : Bool :=
  let z := min x y
  a * 2 ^ (x - z).toNat ≥ b * 2 ^ (y - z).toNat

/-- ⌊√n⌋ for n below 2^96, bit by bit. -/
def isqrt (n : Nat) : Nat :=
  (List.range 48).foldl (fun r i => let c := r + 2 ^ (47 - i); if c * c ≤ n then c else r) 0

/-- The root of an even-exponent magnitude as an integer with a sticky bit below it. -/
def rootSticky (m : Nat) (e : Int) : Nat × Int :=
  let (m, e) := if e % 2 = 0 then (m, e) else (2 * m, e - 1)
  let n := m * 2 ^ 64
  let r := isqrt n
  (2 * r + b2n (r * r ≠ n), e / 2 - 33)

def sqrt32 (w : W32) : W32 :=
  match dec32 w with
  | .nan => enc32 .nan
  | .inf n => if n then enc32 .nan else enc32 (.inf false)
  | .fin n m e =>
    if m = 0 then enc32 (.fin n 0 0)
    else if n then enc32 .nan
    else let (r, e) := rootSticky m e; enc32 (.fin false r e)

/-- One of the FP32 encodings within 1 ulp of a positive value that is given as an integer with sticky bit times a power of two (log 7). -/
def within1ulp (k : Nat) (neg : Bool) (q : Nat) (e : Int) : W32 :=
  let (q', u) := roundMag .rz pFp32 q e
  let lo := min (encMag pFp32 q' u) (infCode pFp32 - 1)
  let exact := geScaled q e q' u && geScaled q' u q e
  let pick := if exact then (if k % 3 = 0 then lo else if k % 3 = 1 then lo + 1 else lo - 1) else lo + k % 2
  BitVec.ofNat 32 (signBit pFp32 neg + pick)

def rcp32 (w : W32) : W32 :=
  match dec32 w with
  | .nan => enc32 .nan
  | .inf n => enc32 (.fin n 0 0)
  | .fin n m e =>
    if m = 0 then enc32 (.inf n)
    else
      let q := 2 ^ 80 / m
      within1ulp (Config.sfuChoice 0 w) n (2 * q + b2n (q * m ≠ 2 ^ 80)) (-e - 81)

def rsq32 (w : W32) : W32 :=
  match dec32 w with
  | .nan => enc32 .nan
  | .inf n => if n then enc32 .nan else enc32 (.fin false 0 0)
  | .fin n m e =>
    if m = 0 then enc32 (.inf n)
    else if n then enc32 .nan
    else
      let (m', e') := if e % 2 = 0 then (m, e) else (2 * m, e - 1)
      -- 1/√(m' 2^e') = √(2^90 / m') 2^(−45 − e'/2)
      let d := 2 ^ 90 / m'
      let r := isqrt d
      within1ulp (Config.sfuChoice 1 w) false (2 * r + b2n (r * r * m' ≠ 2 ^ 90)) (-(e' / 2) - 46)

/-- ln 2 in units of 2^−96 and 2π in units of 2^−128, rounded down. -/
def ln2x96 : Nat := 54916777467707473351141471128
def tau128 : Nat := 2138057168129933495719360746323741566601

/-- Code of a magnitude `q` × 2^`e` rounded toward zero. -/
def downCode (q : Nat) (e : Int) : Nat :=
  let (q', u) := roundMag .rz pFp32 q e
  min (encMag pFp32 q' u) (infCode pFp32)

/-- Whether an FP32 encoding lies within 2 ulp of a value of its sign whose magnitude lies between `a` and `b` in units of 2^`e`: between code c and
c + 1 the codes c − 1 to c + 2 do. -/
def within2ulp (r : W32) (neg : Bool) (a b : Nat) (e : Int) : Bool :=
  decide (r.toNat / 2 ^ 31 = b2n neg) && decide (downCode a e ≤ r.toNat % 2 ^ 31 + (if a = b then 2 else 1)) &&
  decide (r.toNat % 2 ^ 31 ≤ min (downCode b e + 2) (infCode pFp32))

/-- Σ yⁿ/n! in units of 2^−96 for y below ln 2: at most 64 units low. -/
def expSeries (y : Nat) : Nat :=
  ((List.range 40).foldl (fun (c : Nat × Nat) n => let t := c.2 * y / 2 ^ 96 / (n + 1); (c.1 + t, t)) (2 ^ 96, 2 ^ 96)).1

/-- The result of EXP2 is the part's own where that is within its bound, else 2^x rounded down. -/
def exp2Near (r : W32) (n : Bool) (m : Nat) (e : Int) : W32 :=
  if !n && geScaled m e 129 0 then enc32 (.inf false)
  else if n && geScaled m e 160 0 then if r.toNat ≤ 2 then r else 0
  else
    let z := e + 96
    let f := if 0 ≤ z then m * 2 ^ z.toNat else m / 2 ^ (-z).toNat
    let whole := decide (0 ≤ z) && f % 2 ^ 96 = 0
    let x : Int := if n then -(f : Int) else f
    let s := expSeries ((x % 2 ^ 96).toNat * ln2x96 / 2 ^ 96)
    let k := x / 2 ^ 96 - 96
    if within2ulp r false (if whole then s else s - 64) (if whole then s else s + 64) k then r else BitVec.ofNat 32 (downCode s k)

/-- log₂ of m × 2^e in units of 2^−96, and whether it is exact; otherwise it is off by 256 units at most. -/
def log2Value (m : Nat) (e : Int) : Int × Bool :=
  let k := Nat.log2 m
  let z := (m - 2 ^ k) * 2 ^ 96 / (m + 2 ^ k)
  let sum := ((List.range 36).foldl (fun (c : Nat × Nat) j => (c.1 + c.2 / (2 * j + 1), c.2 * z / 2 ^ 96 * z / 2 ^ 96)) (0, z)).1
  ((e + k) * 2 ^ 96 + (2 * sum * 2 ^ 96 / ln2x96 : Nat), m = 2 ^ k)

/-- The result of LOG2 is the part's own where that is within its bound, else the logarithm rounded toward zero. -/
def log2Near (r : W32) (m : Nat) (e : Int) : W32 :=
  let (t, exact) := log2Value m e
  let a := t.natAbs
  let err := if exact then 0 else 256
  if a = 0 then (if r.toNat % 2 ^ 31 ≤ 2 then r else 0)
  else if within2ulp r (t < 0) (a - err) (a + err) (-96) then r
  else BitVec.ofNat 32 (signBit pFp32 (t < 0) + downCode a (-96))

/-- The sine or cosine of ±m × 2^e, of magnitude 2^15 at most, in units of 2^−128, off by 2^−60 at most. -/
def trigValue (cosine n : Bool) (m : Nat) (e : Int) : Int :=
  let z := e + 128
  let y := (if 0 ≤ z then m * 2 ^ z.toNat else m / 2 ^ (-z).toNat) % tau128
  let sum := ((List.range 60).foldl (fun (c : Int × Nat) k =>
    let v : Int := match k % 4, cosine with
      | 0, true => c.2
      | 2, true => -c.2
      | 1, false => c.2
      | 3, false => -c.2
      | _, _ => 0
    (c.1 + v, c.2 * y / 2 ^ 128 / (k + 1))) (0, 2 ^ 128)).1
  if n && !cosine then -sum else sum

/-- The result of SIN or COS is the part's own where that is within 2^−21, else the value rounded. -/
def trigNear (r : W32) (t : Int) : W32 :=
  match dec32 r with
  | .fin n m e =>
    let v : Int := (m * 2 ^ (e + 149).toNat : Nat)
    if ((if n then -v else v) - t * 2 ^ 21).natAbs ≤ 2 ^ 128 + 2 ^ 89 then r else enc32 (.fin (t < 0) t.natAbs (-128))
  | _ => enc32 (.fin (t < 0) t.natAbs (-128))

def exp2f (w : W32) : W32 :=
  match dec32 w with
  | .nan => enc32 .nan
  | .inf n => if n then 0 else enc32 (.inf false)
  | .fin n m e => exp2Near (Config.exp2 w) n m e

def log2f (w : W32) : W32 :=
  match dec32 w with
  | .nan => enc32 .nan
  | .inf n => if n then enc32 .nan else enc32 (.inf false)
  | .fin n m e => if m = 0 then enc32 (.inf true) else if n then enc32 .nan else log2Near (Config.log2 w) m e

/-- SIN and COS: past |x| = 2^15 the result is in [−1, 1]. -/
def trig (cosine : Bool) (f : W32 → W32) (w : W32) : W32 :=
  match dec32 w with
  | .nan => enc32 .nan
  | .inf _ => enc32 .nan
  | .fin n m e =>
    let r := f w
    if w.toNat % 2 ^ 31 ≤ 0x47000000 then trigNear r (trigValue cosine n m e)
    else if r.toNat % 2 ^ 31 ≤ 0x3F800000 then r
    else (r &&& 0x80000000) ||| 0x3F800000

/-! ## CVT (R264–R266) -/

/-- Whether R266 lists the conversion, with its saturation modifier. -/
def cvtDefined (dst src : Fmt) (s : SatMod) : Bool :=
  (match dst, src with
   | .bf16, .fp32 => true
   | .e4m3, .fp32 => true
   | .e4m3, .bf16 => true
   | .e5m2, .fp32 => true
   | .e5m2, .bf16 => true
   | .int32, .fp32 => true
   | .int8, .fp32 => true
   | .int4, .fp32 => true
   | .fp32, .int32 => true
   | .fp32, .bf16 => true
   | .fp32, .e4m3 => true
   | .fp32, .e5m2 => true
   | .fp32, .int8 => true
   | .fp32, .int4 => true
   | .bf16, .e4m3 => true
   | .bf16, .e5m2 => true
   | _, _ => false) &&
  (match s, dst with
   | .default, _ => true
   | .sat, .e4m3 => true
   | .sat, .e5m2 => true
   | .nosat, .e4m3 => true
   | _, _ => false)

/-- Value of a source register read in a format. -/
def cvtSource (f : Fmt) (w : W32) : FV :=
  match f with
  | .fp32 => dec32 w
  | .bf16 => decFloat pBf16 (w.toNat % 2 ^ 16)
  | .e4m3 => decFloat pE4m3 (w.toNat % 2 ^ 8)
  | .e5m2 => decFloat pE5m2 (w.toNat % 2 ^ 8)
  | .int32 => let x := sint 32 w.toNat; .fin (x < 0) x.natAbs 0
  | .int8 => let x := sint 8 w.toNat; .fin (x < 0) x.natAbs 0
  | .int4 => let x := sint 4 w.toNat; .fin (x < 0) x.natAbs 0

/-- A floating result with its overflow, NaN and infinity rules; `satMax` saturates to the largest finite value, otherwise `over` is the
code of an overflow. -/
def cvtFloat (f : FmtP) (r : RMode) (satMax satInf : Bool) (beyond : Nat → Nat) (v : FV) : Nat :=
  match v with
  | .nan => canonNan f
  | .inf n => if satInf then signBit f n + maxFinite f else beyond (signBit f n)
  | .fin n m e =>
    let (q, u) := roundMag r f m e
    let c := encMag f q u
    if c ≤ maxFinite f then signBit f n + c
    else if satMax then signBit f n + maxFinite f else beyond (signBit f n)

/-- An integer result: rounded, saturated; NaN gives 0 (R266). -/
def cvtInt (bits : Nat) (r : RMode) (v : FV) : Nat :=
  let hi : Int := 2 ^ (bits - 1) - 1
  let lo : Int := -(2 ^ (bits - 1))
  match v with
  | .nan => 0
  | .inf n => toBits bits (if n then lo else hi)
  | .fin n m e =>
    let q : Int := roundShift r m e
    toBits bits (max lo (min hi (if n then -q else q)))

/-- The result of CVT.dst.src for a defined conversion. -/
def cvt (dst src : Fmt) (r : RMode) (s : SatMod) (w : W32) : W32 :=
  let v := cvtSource src w
  BitVec.ofNat 32 <| match dst with
    | .fp32 => match src with
      | .int32 => match v with
        | .fin n m e => if m = 0 then 0 else cvtFloat pFp32 r false false (fun x => x) (.fin n m e)
        | _ => 0
      | _ => match v with
        | .fin n m e => (enc32 (.fin (n && (m ≠ 0 || src = .bf16 || src = .e4m3 || src = .e5m2)) m e)).toNat
        | x => (enc32 x).toNat
    | .bf16 => cvtFloat pBf16 r (r = .rz) false (fun sg => sg + infCode pBf16) v
    | .e4m3 => cvtFloat pE4m3 r (s ≠ .nosat) (s ≠ .nosat) (fun _ => canonNan pE4m3) v
    | .e5m2 => cvtFloat pE5m2 r (s = .sat || r = .rz) (s = .sat) (fun sg => sg + infCode pE5m2) v
    | .int32 => cvtInt 32 r v
    | .int8 => cvtInt 8 r v
    | .int4 => cvtInt 4 r v

/-! ## SB4 blocks (R250–R252, R268–R270) -/

/-- Twice the magnitude of an E2M1 code (R250). -/
def e2m1 (c : Nat) : Nat := [0, 1, 2, 3, 4, 6, 8, 12].getD (c % 8) 0

/-- Magnitude of an element of a block: none for infinity. -/
def sb4Mag (v : FV) : Option (Nat × Int) :=
  match v with
  | .fin _ m e => some (m, e)
  | _ => none

/-- Largest magnitude of a list of lanes; none is infinity. -/
def sb4Max (vs : List FV) : Option (Nat × Int) :=
  vs.foldl (fun acc v => match acc, sb4Mag v with
    | some (m, e), some (m', e') => if geScaled m e m' e' then some (m, e) else some (m', e')
    | _, _ => none) (some (0, 0))

/-- Step 2 of R269: the scale byte. -/
def sb4Scale (a : Option (Nat × Int)) : Nat :=
  match a with
  | none => 254
  | some (m, e) => ((List.range 255).find? fun (s : Nat) => geScaled 21 ((s : Int) - 128) m e).getD 254

/-- Step 3 of R269: the fine-step code of a sub-block (f = (4 + code) / 4, R251). -/
def sb4Fine (s : Nat) (a : Option (Nat × Int)) : Nat :=
  match a with
  | none => 3
  | some (m, e) => ((List.range 4).find? fun (c : Nat) => geScaled (3 * (4 + c)) ((s : Int) - 128) m e).getD 3

/-- Step 4 of R269: the element code. Values and midpoints are in quarters of the E2M1 unit. -/
def sb4Elem (r : RMode) (s c : Nat) (v : FV) : Nat :=
  match v with
  | .nan => 0
  | .inf n => if n then 15 else 7
  | .fin n m e =>
    -- x / (f 2^(s−127)) ≥ k / 4 exactly when 16 m 2^e ≥ k (4 + c) 2^(s−127)
    let ge (k : Nat) : Bool := geScaled (16 * m) e (k * (4 + c)) ((s : Int) - 127)
    let gt (k : Nat) : Bool := !geScaled (k * (4 + c)) ((s : Int) - 127) (16 * m) e
    let code := match r with
      | .rz => if ge 24 then 7 else if ge 16 then 6 else if ge 12 then 5 else if ge 8 then 4 else if ge 6 then 3
               else if ge 4 then 2 else if ge 2 then 1 else 0
      | .rn => if gt 20 then 7 else if ge 14 then 6 else if gt 10 then 5 else if ge 7 then 4 else if gt 5 then 3
               else if ge 3 then 2 else if gt 1 then 1 else 0
    if code = 0 then 0 else if n then 8 + code else code

/-- BCVT.SB4.F32 on the 32 lane values (+0 in inactive lanes): per lane the word written (R268, R269). -/
def bcvtToSb4 (r : RMode) (vs : List FV) : List W32 :=
  if vs.any (fun v => v = .nan) then vs.map fun _ => 0xFF00
  else
    let s := sb4Scale (sb4Max vs)
    let fine := (List.range 4).map fun j => sb4Fine s (sb4Max ((vs.drop (8 * j)).take 8))
    let fb := fine.getD 0 0 + 4 * fine.getD 1 0 + 16 * fine.getD 2 0 + 64 * fine.getD 3 0
    (List.range 32).map fun i =>
      BitVec.ofNat 32 (sb4Elem r s (fine.getD (i / 8) 0) (vs.getD i (.fin false 0 0)) + 256 * s + 65536 * fb)

/-- BCVT.F32.SB4 in lane `i` (R270). -/
def bcvtFromSb4 (i : Nat) (w : W32) : W32 :=
  let code := w.toNat % 16
  let s := w.toNat / 256 % 256
  let c := w.toNat / 65536 / 4 ^ (i / 8) % 4
  if s = 255 then enc32 .nan
  else if code % 8 = 0 then 0
  else enc32 (.fin (code ≥ 8) (e2m1 code * (4 + c)) ((s : Int) - 130))

end Sys2Proof.Machine
end

