-- ==== Sys2Proof/Machine/Group.lean ====
section
/-! DEFINITION. Machine/Group.lean: registers of a thread group, its paths, reconvergence and yield rotation (R127–R153). -/

namespace Sys2Proof.Machine

/-- Lanes of a mask, in order. -/
def lanesOf (m : LaneMask) : List Nat := (List.range 32).filter fun l => m.getLsbD l
/-- The mask of the lanes that satisfy `f`. -/
def maskOf (f : Nat → Bool) : LaneMask :=
  (List.range 32).foldl (fun m l => if f l then m ||| (1 <<< l) else m) 0

/-- Register `r` of lane `l` (R131, R133). -/
def Group.rg (y : Group) (r l : Nat) : W32 := mget 0 y.regs (32 * r + l)

/-- Register `r` of lane `l` is written: a mark and a load still to arrive there are superseded (R165). -/
def Group.putLane (y : Group) (r l : Nat) (v : W32) : Group :=
  { y with regs := mput 0 y.regs (32 * r + l) v
           marks := mdel y.marks (32 * r + l)
           pend := mdel y.pend (32 * r + l) }

/-- Register `r` of every lane of `m` takes its value of `f`. -/
def Group.putLanes (y : Group) (r : Nat) (m : LaneMask) (f : Nat → W32) : Group :=
  (lanesOf m).foldl (fun y l => y.putLane r l (f l)) y

/-- The path being issued. -/
def Group.path (y : Group) : Path := y.paths.getD y.cur { pc := 0, mask := 0 }
/-- The active mask (03, Groups and blocks). -/
def Group.act (y : Group) : LaneMask := y.path.mask
def Group.pc (y : Group) : Pc := y.path.pc

/-- The split with an identifier. -/
def Group.split? (y : Group) (i : Nat) : Option Split := y.splits.find? fun s => s.id = i

/-- The path that runs when the one at index `i` no longer does: the nearest below it, from the lowest the highest (R150). -/
def nextBelow (n i : Nat) : Nat := if i = 0 then n - 1 else i - 1

/-- A path newly scheduled counts its issue slots from 0 (R149). -/
def Group.schedule (y : Group) (i : Nat) : Group :=
  { y with cur := i, paths := y.paths.modify i fun q => { q with slots := 0, back := false } }

/-- Whether a path waits at the reconvergence address of the split it came from (R145). -/
def Group.atReconv (y : Group) (q : Path) : Bool :=
  match q.split with
  | none => false
  | some i => match y.split? i with
    | none => false
    | some s => q.pc = s.reconv

/-- Insert a path at index `i`. -/
def insertAt (l : List Path) (i : Nat) (q : Path) : List Path := l.take i ++ q :: l.drop i

/-- The path at index `i` waits at its reconvergence address, or resumes there with the others when it is the last (R145). -/
def Group.arrive (y : Group) (i : Nat) : Group :=
  match y.paths[i]? with
  | none => y
  | some q => match q.split.bind y.split? with
    | none => y
    | some s =>
      let s := { s with arrived := s.arrived ||| q.mask }
      let rest := y.paths.take i ++ y.paths.drop (i + 1)
      if s.arrived = s.expected then
        { y with splits := y.splits.filter (fun x => x.id ≠ s.id)
                 paths := insertAt rest i { pc := s.reconv, mask := s.arrived, split := s.parent } }
      else
        let y' := { y with splits := y.splits.map (fun x => if x.id = s.id then s else x), paths := rest }
        if i < y.cur then { y' with cur := y.cur - 1 }
        else if i = y.cur then y'.schedule (nextBelow rest.length i)
        else y'

/-- Every path that has reached its reconvergence address arrives there. -/
def Group.settle : Nat → Group → Group
  | 0, y => y
  | n + 1, y =>
    match y.paths.findIdx? y.atReconv with
    | none => y
    | some i => Group.settle n (y.arrive i)

/-- Yield rotation (R149, R150) after the current path has issued an instruction; `back` says whether that was a backward branch. -/
def Group.rotates (y : Group) (back : Bool) : Bool :=
  decide (1 < y.paths.length) &&
  ((decide (y.path.slots = 64) && y.path.back) || (decide (64 < y.path.slots) && back))

/-- The group after the current path issued an instruction that leaves it at `pc`: slot counted, reconvergence, rotation. The second part
tells whether rotation switched paths. -/
def Group.issued (y : Group) (pc : Pc) (back : Bool) : Group × Bool :=
  let i := y.cur
  let upd (q : Path) : Path := { q with pc := pc, slots := q.slots + 1, back := q.back || back }
  let y := { y with paths := y.paths.modify i upd }
  if y.rotates back && !y.atReconv y.path then
    ((y.schedule (nextBelow y.paths.length y.cur)).settle 64, true)
  else (y.settle 64, false)

/-- The current path splits: `parts` are the pending paths (highest target first) and the one that goes on is at `pc` with mask `m`
(R144, R147). Pending paths go below the current one. -/
def Group.divide (y : Group) (reconv pc : Pc) (m : LaneMask) (parts : List (Pc × LaneMask)) : Group :=
  let q := y.path
  let id := y.nextId
  let s : Split := { id, reconv, expected := q.mask, parent := q.split }
  let below := parts.map fun (a, k) => ({ pc := a, mask := k, split := some id } : Path)
  let cont : Path := { q with mask := m, split := some id, pc := pc }
  { y with splits := y.splits ++ [s]
           nextId := id + 1
           paths := y.paths.take y.cur ++ below ++ cont :: y.paths.drop (y.cur + 1)
           cur := y.cur + below.length }

/-- Threads leave the group: masks and the threads that splits wait for shrink, splits that wait for nobody else resume (R145, R157). -/
def Group.leave (y : Group) (m : LaneMask) : Group :=
  let keep := ~~~m
  let i := y.cur
  let gone := (y.path.mask &&& keep) = 0
  let paths := (y.paths.map fun q => { q with mask := q.mask &&& keep }).filter fun q => q.mask ≠ 0
  let splits := y.splits.map fun s => { s with expected := s.expected &&& keep, arrived := s.arrived &&& keep }
  let y := { y with live := y.live &&& keep, paths := paths, splits := splits.filter fun s => s.expected ≠ 0 }
  -- a split whose remaining threads have all arrived resumes at the position of the path that left
  match y.splits.find? (fun s => s.arrived = s.expected) with
  | some s =>
    let q : Path := { pc := s.reconv, mask := s.arrived, split := s.parent }
    ({ y with splits := y.splits.filter (fun x => x.id ≠ s.id), paths := insertAt y.paths i q, cur := i }).settle 64
  | none => if gone then y.schedule (nextBelow y.paths.length i) else y

/-- Register granules of a group (R131). -/
def granulesOf (nReg : Nat) : Nat := (nReg + 7) / 8

/-- B of R137: blocks a tile can hold. -/
def residentBlocks (g nReg localBytes scratch : Nat) : Nat :=
  let l := (localBytes + 4095) / 4096 * 4096
  let b := min (min (16 / g) 8) (64 / (g * granulesOf nReg))
  if l = 0 then b else min b (scratch / l)

/-- The scratchpad of a split of R327, in bytes: 512 KiB less the L1 part. -/
def scratchOf (l1Size : Nat) : Nat := 0x80000 - 0x10000 * l1Size

end Sys2Proof.Machine
end

