-- ==== Sys2Proof/Machine/Tile.lean ====
section
/-! DEFINITION. Machine/Tile.lean: issuing an instruction of a thread group, precise faults, the end of groups and blocks, block barriers,
aborting a transaction, resetting a tile (03). -/

namespace Sys2Proof.Machine

/-- Fault codes of R167, R357, R416, R469, R513, R608 and the matrix and mesh chapters. -/
def fIllegal := 0x01
def fRegBound := 0x02
def fMisaligned := 0x03
def fAddrRange := 0x04
def fAccessDenied := 0x05
def fLocalBound := 0x06
def fBarrierDiverged := 0x07
def fBarrierTimeout := 0x08
def fTrap := 0x09
def fPoison := 0x0A
def fResource := 0x0B
def fCtrRange := 0x0C
def fFenceTimeout := 0x0D
def fDeadRead := 0x60
def fDiscardDenied := 0x61
def fTxNone := 0x62
def fAtomTarget := 0x63
def fTileEcc := 0x80

/-- What a fault carries to TL_FAULT and TL_FAULT_ADDR. -/
structure FaultInfo where
  code  : Nat
  lanes : LaneMask := 0
  addr  : Nat := 0
deriving DecidableEq, Repr

/-- Lowest of a list of numbers. -/
def minOf (l : List Nat) : Nat := match l with
  | [] => 0
  | x :: r => r.foldl min x

/-- A fault is recorded (R175, R178, R179, R183): captured only while TL_EVENTS.FAULT is 0, otherwise MORE is set. -/
def Part.capture (p : Part) (t g : Nat) (f : FaultInfo) (pc : Pc) (blockFault : Bool) (block : Nat) : Part :=
  let p := p.inc TL_COUNTS_FAULTS 1 t
  if p.rd TL_EVENTS_FAULT t = 1 then p.set1 TL_FAULT_PC_MORE t
  else
    let p := p.wr TL_FAULT_CODE f.code t
    let p := p.wr TL_FAULT_GROUP (if blockFault then 0 else g) t
    let p := p.wr TL_FAULT_BLOCK block t
    let p := p.wr TL_FAULT_BLOCK_FAULT (b2n blockFault) t
    let p := p.wr TL_FAULT_LANES (if blockFault then 0 else f.lanes.toNat) t
    let p := p.wr TL_FAULT_STEP (b2n (p.tileStep t)) t
    let p := p.wr TL_FAULT_VF (p.tileFn t) t
    let p := p.wr TL_FAULT_PC_PC pc.toNat t
    let p := p.wr TL_FAULT_PC_MORE 0 t
    let p := p.wr TL_FAULT_ADDR_ADDR f.addr t
    p.set1 TL_EVENTS_FAULT t

/-- The first fault of a kernel (R162). -/
def Part.kernelFault (p : Part) (k t code : Nat) : Part :=
  match p.kernel k with
  | none => p
  | some x =>
    let x := if x.firstFault.isNone then { x with firstFault := some (code, t) } else x
    { p with sched := { p.sched with kernels := mput none p.sched.kernels k (some x) } }

/-- A fault ends the work of the tile (R161–R163): a kernel stops on this tile; in the step program the step has faulted. The log entry
is that of R830. -/
def Part.endWork (p : Part) (t code addr : Nat) : Part :=
  let p := p.modTile t fun x => { x with faulted := true }
  match (p.tile t).work with
  | .kernel k => (p.kernelFault k t code).log 2 1 1 t code 2 addr (p.tileOwner t)
  | .step => { p with step := { p.step with faulted := true } }.log 2 1 1 t code 0 addr (p.tileOwner t)
  | .idle => p

/-- The claims of a group at every slice are released (R455). -/
def Part.dropClaims (p : Part) (t g : Nat) : Part :=
  let keep (z : Slice) : Slice := { z with claims := z.claims.filter fun c => !(c.tile = t && c.group = g) }
  { p with slices := p.slices.map fun c => (c.1, keep c.2) }

/-- Release of a group's open transaction at its slice (R455): claims and held ways freed, the abort counted with its code unless the slice that
decided it has counted it. -/
def Part.txRelease (p : Part) (t g code : Nat) : Part :=
  match (p.group t g).tx with
  | none => p
  | some x =>
    let p := match x.lines with
      | [] => p
      | (l, _, _) :: _ =>
        let s := p.served l
        let p := p.dropClaims t g
        if x.notice.isSome then p else (p.inc LLC_TX_ABORTS 1 s).wr LLC_TX_LAST_ABORT code s
    let p := { p with net := p.net.filter fun r => !(r.tile = t && r.group = g && (match r.kind with | .claim _ => true | _ => false)) }
    p.modGroup t g fun y => { y with tx := none }

/-- A precise fault of the instruction the group was to issue (R161, R456). -/
def Part.fault (p : Part) (t g : Nat) (f : FaultInfo) : Part :=
  let y := p.group t g
  let p := p.txRelease t g 15
  (p.capture t g f y.pc false y.block).endWork t f.code f.addr

/-- A group can issue (R140): its tile runs, it is resident and does not wait, no abort is to be delivered first (R455). -/
def Part.canIssue (p : Part) (t g : Nat) : Bool :=
  let x := p.tile t
  let y := x.group g
  !p.fatal && x.work ≠ .idle && x.seq = .none && !x.stopping && !x.faulted && !x.inReset && !x.gated &&
  y.live ≠ 0 && y.wait = .none && (match y.tx with | some c => c.notice.isNone && !c.commit | none => true)

/-- Every source register of the active lanes is written (R140). -/
def Group.srcReady (y : Group) (srcs : List Nat) : Bool :=
  y.pend.all fun (k, _) => !(srcs.contains (k / 32) && y.act.getLsbD (k % 32))

/-- Fault of the fetch at the program counter (R839). -/
def Part.fetchFault (p : Part) (t g : Nat) : Option FaultInfo :=
  let y := p.group t g
  let a := y.pc.toNat
  if !p.hasHome a then some { code := fAddrRange, lanes := y.act, addr := a }
  else if !p.granted (p.tileFn t) a 1 false then some { code := fAccessDenied, lanes := y.act, addr := a }
  else none

def markCode : RegMark → Nat
  | .poison => fPoison
  | .deadRead => fDeadRead
  | .remoteDenied => 0x0E
  | .remoteLost => 0x0F

/-- The mark of a register in a lane. -/
def Group.mark (y : Group) (r l : Nat) : Option (RegMark × Nat) :=
  (y.marks.find? fun c => c.1 = 32 * r + l).map (·.2)

/-- Fault of reading a marked register (R165): the mark of the lowest active lane, in operand order. -/
def Group.markFault (y : Group) (srcs : List Nat) : Option FaultInfo :=
  let hits := srcs.flatMap fun r => (lanesOf y.act).filterMap fun l => (y.mark r l).map fun m => (l, m)
  match hits with
  | [] => none
  | (_, m) :: _ =>
    let same := hits.filter fun h => h.2.1 = m.1
    some { code := markCode m.1, lanes := maskOf fun l => same.any fun h => h.1 = l, addr := minOf (same.map fun h => h.2.2) }

/-- Faults every instruction may take at issue: register bounds (R132), marked sources (R165). -/
def Group.regFault (y : Group) (named srcs : List Nat) : Option FaultInfo :=
  if named.any fun r => y.nReg ≤ r then some { code := fRegBound, lanes := y.act }
  else y.markFault srcs

/-- The group's instruction has issued and leaves its path at `pc` (R144–R150). -/
def Part.advance (p : Part) (t g : Nat) (pc : Pc) (back : Bool) : Part :=
  let r := (p.group t g).issued pc back
  let p := p.setGroup t g r.1
  if r.2 then p.inc TL_COUNTS_ROTATIONS 1 t else p

/-- Instructions take 8 bytes (DEDUCED from R152 and R461, log 10). -/
def Part.next8 (p : Part) (t g : Nat) : Part := p.advance t g ((p.group t g).pc + 8) false

/-- An instruction issues when its group is ready and `ok` holds; it faults precisely (R161) or has its effect. -/
def Part.issue (p : Part) (t g : Nat) (named srcs : List Nat) (ok : Bool) (act : Part → Part) : Part :=
  if !(p.canIssue t g && (p.group t g).srcReady srcs && ok) then p
  else match p.fetchFault t g with
    | some f => p.fault t g f
    | none =>
      let p := p.inc TL_ISSUE_ISSUED 1 t
      match (p.group t g).regFault named srcs with
      | some f => p.fault t g f
      | none => act p

/-- An undefined encoding or a reserved field (R167). -/
def Part.illegal (p : Part) (t g : Nat) : Part := p.fault t g { code := fIllegal, lanes := (p.group t g).act }

/-! ## Ends of groups and blocks, barriers (R156–R160) -/

/-- Slots of the live groups of a block. -/
def Tile.blockGroups (x : Tile) (b : Nat) : List Nat :=
  (List.range 16).filter fun g => (x.group g).live ≠ 0 && (x.group g).block = b

/-- The block barrier completes when every live group of the block has arrived (R157). -/
def Tile.barrierCheck (x : Tile) (b : Nat) : Tile :=
  let k := x.block b
  if !k.arrived.isEmpty && (x.blockGroups b).all (fun g => k.arrived.contains g) then
    let x := k.arrived.foldl (fun x g => if (x.group g).wait = .barrier then x.setGroup g { x.group g with wait := .none } else x) x
    x.setBlock b { k with arrived := [], firstPc := none, limit := 0 }
  else x

/-- A group's reservation, qualification and leases end at every slice (R440, R464); held writes proceed. -/
def Part.dropRsv (p : Part) (t g : Nat) : Part :=
  { p with slices := p.slices.map fun (i, z) => (i, { z with
      rsvs := z.rsvs.filter fun r => !(r.tile = t && r.group = g)
      leases := z.leases.filter fun r => !(r.tile = t && r.group = g)
      qualified := z.qualified.filter fun r => !(r.1 = t && r.2.1 = g) }) }

/-- A group ends: its slot and granules return, it counts as arrived at the barrier; the last one of its block returns the block's slot and
local memory, and its kernel has one block more that ended (R128, R157). -/
def Part.endGroup (p : Part) (t g : Nat) : Part :=
  let b := (p.group t g).block
  let p := p.dropRsv t g
  let p := p.modTile t fun x => (x.setGroup g {}).barrierCheck b
  if ((p.tile t).blockGroups b).isEmpty then
    let p := p.modTile t fun x => x.setBlock b {}
    match (p.tile t).work with
    | .kernel k => match p.kernel k with
      | some x => { p with sched := { p.sched with kernels := mput none p.sched.kernels k (some { x with blocksEnded := x.blocksEnded + 1 }) } }
      | none => p
    | _ => p
  else p

/-! ## Aborting a transaction (R455, R457, R458) -/

/-- The abort word: code, argument, bits [23:8] of the line. -/
def abortWord (code arg line : Nat) : W32 := BitVec.ofNat 32 (code + 256 * (arg % 256) + 65536 * (line / 256 % 65536))

/-- The threads of TXBEGIN go on at its target as one path; splits made since then dissolve. -/
def Group.resumeTx (y : Group) (x : Tx) : Group :=
  let m := x.mask &&& y.live
  let others := (y.paths.map fun q => { q with mask := q.mask &&& ~~~m }).filter fun q => q.mask ≠ 0
  let splits := (y.splits.filter fun s => s.id < x.firstId).map fun s => { s with arrived := s.arrived &&& ~~~m }
  let below := (y.paths.take y.cur).filter fun q => (q.mask &&& ~~~m) ≠ 0
  let i := below.length
  { y with paths := insertAt others i { pc := x.target, mask := m, split := x.split }, splits, cur := i }

/-- The group's transaction aborts with `code`: buffered writes discarded, claims released, the group resumes at the target with the abort
word in vd. -/
def Part.txAbort (p : Part) (t g code arg line : Nat) : Part :=
  match (p.group t g).tx with
  | none => p
  | some x =>
    let p := p.txRelease t g code
    p.modGroup t g fun y => ({ y.resumeTx x with wait := .none } : Group).putLanes x.vd (x.mask &&& y.live) fun _ => abortWord code arg line

/-- A slice aborts an open transaction of a tile's group: the tile learns of it (R455). -/
def Part.txNotice (p : Part) (t g code line : Nat) : Part :=
  p.modGroup t g fun y => { y with tx := y.tx.map fun x => if x.notice.isNone then { x with notice := some (code, line) } else x }

/-- Instructions that R458 calls ILLEGAL inside a transaction abort it with code 6. -/
def Part.noTx (p : Part) (t g : Nat) (act : Part → Part) : Part :=
  if (p.group t g).tx.isSome then p.txAbort t g 6 0 0 else act p

/-! ## Tile reset (R20, R21, R170, R174) -/

/-- Registers of the tile that a tile reset returns to their reset value: those R174, R275, R361 and R514 do not keep. -/
def Part.resetTile (p : Part) (t cause : Nat) : Part :=
  let x := p.tile t
  let accepted (e : SbEntry) : Bool := p.net.any fun r => r.tile = t && r.sb = some e.id && r.state ≠ ReqState.sent
  let lost := (x.sb.filter fun e => !accepted e).length
  let dirty := x.l1.foldl (fun n c => n + ((List.range 4).filter fun i => c.2.dirty.getLsbD i).length) 0
  let p := { p with net := p.net.filter fun r => !(r.tile = t && r.sb.isSome && r.state = ReqState.sent) }
  let p := p.setTile t { x with
    blocks := [], groups := [], sb := [], l1 := [], l1Ptr := [], l1Data := [], arr := [], acc := [], ops := [],
    ptc := [], headers := [], slotRec := [], streams := [], stagedStreams := [], openStreams := [], weights := [], ready := 0, consumer := none,
    seq := .none, faulted := false, stopping := false, work := .idle }
  let p := p.wr TL_RESET_STATUS_LOST_STORES (min lost 32) t
  let p := p.wr TL_RESET_STATUS_CAUSE cause t
  let p := if cause = 1 then p.inc TL_RESET_STATUS_RESETS 1 t else p
  let p := p.set1 TL_EVENTS_RESET_DONE t
  let p := if lost = 0 then p else p.set1 TL_EVENTS_STORES_LOST t
  let p := p.wr TL_L1_ECC_LOST_DIRTY (min dirty 4096) t
  let p := p.setReg reg_TL_ARRAY (BitVec.ofNat 64 reg_TL_ARRAY.rst) t
  p.setReg reg_TL_BARRIER_TIMEOUT (BitVec.ofNat 64 reg_TL_BARRIER_TIMEOUT.rst) t

end Sys2Proof.Machine
end

