-- ==== Sys2Proof/Machine/SliceOps.lean ====
section
/-! DEFINITION. Machine/SliceOps.lean: a cache slice: where a line sits, replacement, misses, dead lines, writes and what they abort, atomics
performed, compression (08, 09). -/

namespace Sys2Proof.Machine

def wkey (set w : Nat) : Nat := 16 * set + w
def Slice.way (z : Slice) (set w : Nat) : Way := mget {} z.ways (wkey set w)
def Slice.putWay (z : Slice) (set w : Nat) (x : Way) : Slice := { z with ways := mput {} z.ways (wkey set w) x }

/-- Partner line (R365), and the lower line of the two. -/
def partnerOf (l : Nat) : Nat := if l / 65536 % 2 = 0 then l + 65536 else l - 65536
def pairLow (l : Nat) : Nat := if l / 65536 % 2 = 0 then l else l - 65536

/-- A way holds line `l`. -/
def Way.has (x : Way) (l : Nat) : Bool := (x.kind = .line && x.line = l) || (x.kind = .pair && x.line = pairLow l)

/-- Lines in a way. -/
def Way.lines (x : Way) : List Nat :=
  match x.kind with
  | .line => [x.line]
  | .pair => [x.line, x.line + 65536]
  | _ => []

/-- The way of its set that holds line `l`. -/
def Slice.find (z : Slice) (l : Nat) : Option Nat := (List.range 16).find? fun w => (z.way (setOf l) w).has l

/-- Bit of a sector in a way's valid and dirty bits. -/
def Way.bit (x : Way) (a : Nat) : Nat := a / 64 % 4 + (if x.kind = .pair && lineOf a ≠ x.line then 4 else 0)
def Way.isValid (x : Way) (a : Nat) : Bool := x.valid.getLsbD (x.bit a)
def Way.setBits (x : Way) (a : Nat) : Way :=
  { x with valid := x.valid ||| (1 <<< x.bit a), dirty := x.dirty ||| (1 <<< x.bit a) }

/-- Whether slices of its tuber are remapped to `s`: then ways 16 − 2L to 15 − L hold pinned lines (R759). -/
def Part.isTarget (p : Part) (s : Nat) : Bool := p.repair.sliceMap.any fun c => c.2 = s

/-- A way that is being cleaned to go out of use, or of a slice that will be remapped: nothing is allocated there, hits are still served (R408,
R757). -/
def Part.closingWay (p : Part) (s w : Nat) : Bool := p.rd LLC_STATUS_STATE s ≠ 0 || p.cleans.any fun c => match c.kind with
  | .powerDown t g => s / 64 = t && w / 4 = g
  | _ => false

/-- A way a window may use in a set: in WAYS, neither locked nor Off (R378, R759). -/
def Part.usable (p : Part) (s set win w : Nat) : Bool :=
  (p.winWays win).testBit w && (p.rd LLC_STATUS_WAYS_POWERED s).testBit w && !(p.rd LLC_STATUS_WAYS_LOCKED s).testBit w &&
  !(p.isTarget s && decide (16 - 2 * p.lockL ≤ w)) && !p.closingWay s w && ((p.slice s).way set w).kind ≠ .off

/-- A way eligible for replacement (R378): usable, not reserved by a miss entry, not pinned, not held by a transaction (R451), not guarded
(R443). -/
def Part.eligible (p : Part) (s set win w : Nat) : Bool :=
  let z := p.slice s
  p.usable s set win w && !(z.entries.any fun e => e.set = set && e.way = w) && !(z.pins.any fun e => e.set = set && e.way = w) &&
  !(z.claims.any fun c => c.set = set && z.find c.line = some w) &&
  !(z.rsvs.any fun r => r.guarded && r.set = set && z.find r.line = some w)

/-- The way a line takes (R379): the lowest Invalid eligible way, else the first after the round-robin pointer. The flag says whether the
pointer moves. -/
def Part.chooseWay (p : Part) (s set win : Nat) : Option (Nat × Bool) :=
  let z := p.slice s
  match (List.range 16).find? fun w => p.eligible s set win w && (z.way set w).kind = .invalid with
  | some w => some (w, false)
  | none =>
    let ptr := mget 15 z.ptr set
    (((List.range 16).map fun i => (ptr + 1 + i) % 16).find? fun w => p.eligible s set win w).map fun w => (w, true)

/-- Write-back of a line (R381, R536, R549): dropped and counted when its stack is gone. -/
def Part.writeBackLine (p : Part) (l : Nat) : Part :=
  let x := p.phys l
  let st := p.channelOf x / 32
  let p := p.settleMarks x
  if p.dirty.any fun c => decide (x ≤ c.1) && decide (c.1 < x + 256) then
    if p.stackGone st then (p.dropDirty x).set1 HBM_EVENTS_WRITE_DROPPED st else p.writeBack x
  else p

/-- The lines of a way leave it: dirty sectors are written back, reservations on them are lost (R381, R440). -/
def Part.evict (p : Part) (s set w : Nat) : Part :=
  let x := (p.slice s).way set w
  let p := x.lines.foldl (fun p l => p.writeBackLine l) p
  p.modSlice s fun z => { z.putWay set w { kind := if x.kind = .off then .off else .invalid } with
    rsvs := z.rsvs.filter fun r => !x.lines.contains r.line }

/-- A line takes a way of its set: the victim leaves, the pointer moves (R379, R380). None when no way is eligible. -/
def Part.takeWay (p : Part) (s set win : Nat) : Option (Part × Nat) :=
  (p.chooseWay s set win).map fun (w, moved) =>
    let p := p.evict s set w
    (if moved then p.modSlice s fun z => { z with ptr := mput 15 z.ptr set w } else p, w)

/-! ## Writes and what they end (R440, R453) -/

/-- Open transactions that claimed a line abort (R452, R453, R458); their claims are released at once. -/
def Part.abortClaims (p : Part) (s line code : Nat) (who : Claim → Bool) : Part :=
  ((p.slice s).claims.filter fun c => c.line = line && who c).foldl (fun p c =>
    if (p.slice s).claims.any fun d => d.tile = c.tile && d.group = c.group then
      let p := (p.dropClaims c.tile c.group).txNotice c.tile c.group code line
      (p.inc LLC_TX_ABORTS 1 s).wr LLC_TX_LAST_ABORT code s
    else p) p

/-- A write to a line has been performed: reservations on it are lost, transactions that claimed it abort with CONFLICT. -/
def Part.wrote (p : Part) (s line : Nat) : Part :=
  let p := p.modSlice s fun z => { z with rsvs := z.rsvs.filter fun r => r.line ≠ line }
  p.abortClaims s line 1 fun _ => true

/-- The first write to a dead line makes it live with all 256 bytes zero (R393). -/
def Part.revive (p : Part) (l : Nat) : Part :=
  let x := p.phys l
  if p.dead.contains x then
    let zeros := (List.range 256).map fun i => (x + i, (0 : Byte))
    let p := { p with dead := delNat p.dead x, poison := p.poison.filter fun y => !(decide (x ≤ y) && decide (y < x + 256)) }
    let p := { p with hbm := { p.hbm with marks := p.hbm.marks.filter fun y => lineOf y ≠ x } }
    if p.inPin l then p.putMems zeros else p.putDirtys zeros
  else p

/-- Bytes (by address) are stored in a sector at its home slice; a store of the whole sector clears its poison (R414). -/
def Part.storeAt (p : Part) (a : Nat) (bs : List (Nat × Byte)) : Part :=
  let bs' := bs.map fun c => (p.phys c.1, c.2)
  let p := if p.inPin a then p.putMems bs' else p.putDirtys bs'
  if bs.length = 64 then { p with poison := delNat p.poison (p.phys (sectorOf a)) } else p

/-- The resident way of a line marks the sector at `a` valid and dirty; a line just made live has all four. -/
def Part.markWay (p : Part) (s a : Nat) (all : Bool) : Part :=
  let l := lineOf a
  match (p.slice s).find l with
  | none => p
  | some w => p.modSlice s fun z =>
    let x := z.way (setOf l) w
    z.putWay (setOf l) w (if all then [0, 64, 128, 192].foldl (fun x k => x.setBits (l + k)) x else x.setBits a)

/-- A store is performed at slice `s` (R472): dead lines become live, the bytes are merged, others' holds on the line end. -/
def Part.performStore (p : Part) (s a : Nat) (bs : List (Nat × Byte)) : Part :=
  let l := lineOf a
  let dead := p.dead.contains (p.phys l)
  ((((p.revive l).storeAt a bs).markWay s a dead)).wrote s l

/-! ## Atomics (R427–R434) -/

/-- Bytes of an element. -/
def atomSize : AtomTy → Nat
  | .i32 | .f32 | .b32 | .s32 | .u32 => 4
  | .i64 | .b64 | .s64 | .u64 => 8
  | .bf16 => 2

/-- Combinations of R428 for ATOM and RED. -/
def atomDefined (o : AtomOp) (t : AtomTy) : Bool :=
  match o, t with
  | .add, .i32 => true
  | .add, .i64 => true
  | .add, .f32 => true
  | .add, .bf16 => true
  | .and, .b32 => true
  | .and, .b64 => true
  | .or, .b32 => true
  | .or, .b64 => true
  | .xor, .b32 => true
  | .xor, .b64 => true
  | .min, .s32 => true
  | .min, .u32 => true
  | .min, .s64 => true
  | .min, .u64 => true
  | .min, .f32 => true
  | .min, .bf16 => true
  | .max, .s32 => true
  | .max, .u32 => true
  | .max, .s64 => true
  | .max, .u64 => true
  | .max, .f32 => true
  | .max, .bf16 => true
  | .swap, .b32 => true
  | .swap, .b64 => true
  | _, _ => false

/-- BF16 sum rounded once (R303, R428). -/
def badd16 (a b : Nat) : Nat := cvtFloat pBf16 .rn false false (fun sg => sg + infCode pBf16) (fvAdd (decFloat pBf16 a) (decFloat pBf16 b))

/-- FMIN and FMAX of R303: +0 is larger than −0, a NaN in either operand gives the canonical NaN. -/
def fminmax (f : FmtP) (mx : Bool) (a b : Nat) : Nat :=
  let x := decFloat f a
  let y := decFloat f b
  if x = .nan || y = .nan then canonNan f
  else
    let lt := fvLt x y || (fvEq x y && a / 2 ^ (f.eb + f.mb) % 2 = 1 && b / 2 ^ (f.eb + f.mb) % 2 = 0)
    if mx then (if lt then b else a) else (if lt then a else b)

/-- The result written by an operation on an old value and an operand (R428). -/
def atomResult (o : AtomOp) (t : AtomTy) (old x : Nat) : Nat :=
  let n := 8 * atomSize t
  match o with
  | .add => match t with
    | .f32 => (fadd32 (BitVec.ofNat 32 old) (BitVec.ofNat 32 x)).toNat
    | .bf16 => badd16 old x
    | _ => (old + x) % 2 ^ n
  | .and => old &&& x
  | .or => old ||| x
  | .xor => old ^^^ x
  | .swap => x
  | .min => match t with
    | .s32 | .s64 => if sint n x < sint n old then x else old
    | .f32 => fminmax pFp32 false old x
    | .bf16 => fminmax pBf16 false old x
    | _ => min old x
  | .max => match t with
    | .s32 | .s64 => if sint n old < sint n x then x else old
    | .f32 => fminmax pFp32 true old x
    | .bf16 => fminmax pBf16 true old x
    | _ => max old x

/-- One lane's operation on memory: the old value and what is stored (R428). -/
def laneAtomic (o : AtomOp) (t : AtomTy) (cas : Bool) (old : Nat) (c : LaneAcc) : Nat :=
  let n := 2 ^ (8 * atomSize t)
  if cas then (if old = c.val.toNat % n then c.cmp.toNat % n else old) else atomResult o t old (c.val.toNat % n)

/-- The lanes' operations of one request, in order, over the sector's bytes; each lane gets the value stored just before (R429). -/
def runLanes (o : AtomOp) (t : AtomTy) (cas : Bool) : List LaneAcc → List Byte → List Byte × List (Nat × W64)
  | [], bs => (bs, [])
  | c :: r, bs =>
    let i := c.addr % 64
    let n := atomSize t
    let old := leAt bs i n
    let bs' := bs.take i ++ leBytes n (laneAtomic o t cas old c) ++ bs.drop (i + n)
    let (fin, vals) := runLanes o t cas r bs'
    (fin, (c.lane, BitVec.ofNat 64 old) :: vals)

/-- An atomic request performed indivisibly at slice `s` on the sector at `a` (R429, R433): bytes, old values, and whether it was skipped for
poison. -/
def Part.performAtomic (p : Part) (s a : Nat) (o : AtomOp) (t : AtomTy) (cas returns : Bool) (lanes : List LaneAcc) :
    Part × List (Nat × W64) × Bool :=
  if p.poisoned (p.phys (sectorOf a)) && !p.isDead (p.phys a) then
    (if returns then p else p.inc LLC_ATOM_POISON_SKIP 1 s, [], true)
  else
    let (bs, vals) := runLanes o t cas lanes (p.bytesAt (p.phys (sectorOf a)) 64)
    ((p.inc LLC_ATOM_OPS 1 s).performStore s a (bs.mapIdx fun i b => (sectorOf a + i, b)), vals, false)

/-! ## Compression (R396–R399) -/

/-- Zero/constant codec: each line is one 8-byte value repeated 32 times. -/
def constLine (bs : List Byte) : Bool := (List.range 32).all fun i => slice bs (8 * i) 8 = slice bs 0 8

/-- ⌈log₂ n⌉. -/
def clog2 (n : Nat) : Nat := if n ≤ 1 then 0 else Nat.log2 (n - 1) + 1

/-- Size an exponent-plane codec gives for values of `vb` bits with `eb` exponent bits above `mb` mantissa bits; `bits` is 1 + mantissa. -/
def expSize (bs : List Byte) (vbytes eb mb head bits : Nat) : Nat :=
  let vs := (List.range (512 / vbytes)).map fun i => leAt bs (vbytes * i) vbytes
  let nz := vs.filter (· ≠ 0)
  let es := nz.map fun v => v / 2 ^ mb % 2 ^ eb
  let w := match es with
    | [] => 0
    | e :: r => clog2 (r.foldl max e - r.foldl min e + 1)
  head + (nz.length * (bits + w) + 7) / 8

/-- Raw units of SB4_DELTA. -/
def rawUnits (bs : List Byte) : Nat :=
  ((List.range 32).filter fun i =>
    let u := slice bs (16 * i) 16
    !(u.all (· = 0)) && !(0 < i && u = slice bs (16 * (i - 1)) 16)).length

/-- Whether a pair of 512 bytes compresses to 256 under a codec (R397, R399). -/
def compresses (codec : Nat) (bs : List Byte) : Bool :=
  (constLine (bs.take 256) && constLine (bs.drop 256)) ||
  (match codec with
   | 2 => decide (expSize bs 2 8 7 40 8 ≤ 256)
   | 3 => decide (expSize bs 1 4 3 72 4 ≤ 256)
   | 4 => decide (expSize bs 1 5 2 72 3 ≤ 256)
   | 5 => decide (rawUnits bs ≤ 15)
   | _ => false)

/-- A filled line and its resident partner of the same window become a Pair in the partner's way when a codec fits (R397, R398). -/
def Part.tryPair (p : Part) (s l w : Nat) : Part :=
  let z := p.slice s
  let set := setOf l
  let q := partnerOf l
  match p.winAt l, z.find q with
  | some n, some v =>
    let x := z.way set w
    let y := z.way set v
    let low := pairLow l
    let data := p.bytesAt (p.phys low) 256 ++ p.bytesAt (p.phys (low + 65536)) 256
    let bad := p.poison.any fun c => lineOf c = p.phys l || lineOf c = p.phys q
    if p.winType n = 0 && p.winAt q = some n && !(z.pins.any fun e => e.line = q || e.line = l) && p.rd LLC_WIN_ATTR_CODEC 0 n ≠ 0 && y.kind = .line && x.kind = .line && x.valid = 15 && y.valid = 15 && !bad &&
       compresses (p.rd LLC_WIN_ATTR_CODEC 0 n) data then
      let lo := if x.line = low then x else y
      let hi := if x.line = low then y else x
      let pair : Way := { kind := .pair, line := low, win := n, valid := 255, dirty := lo.dirty ||| (hi.dirty <<< 4) }
      p.modSlice s fun z => (z.putWay set w {}).putWay set v pair
    else p
  | _, _ => p

/-- A Pair becomes two Lines (R398): the lower line keeps the way, the other takes one; none when no way is eligible. -/
def Part.expand (p : Part) (s l : Nat) : Option Part :=
  match (p.slice s).find l with
  | none => some p
  | some w =>
    let set := setOf l
    let x := (p.slice s).way set w
    if x.kind ≠ .pair then some p
    else
      let lo : Way := { kind := .line, line := x.line, win := x.win, valid := x.valid &&& 15, dirty := x.dirty &&& 15 }
      let hi : Way := { kind := .line, line := x.line + 65536, win := x.win, valid := x.valid >>> 4, dirty := x.dirty >>> 4 }
      -- the pair's own way is not a victim of the other line
      let q := p.modSlice s fun z => { z with entries := z.entries ++ [{ line := 0, set := set, way := w, win := x.win }] }
      (q.takeWay s set x.win).map fun (r, v) =>
        r.modSlice s fun z => (({ z with entries := z.entries.filter fun e => !(e.line = 0 && e.set = set && e.way = w) }).putWay set w lo).putWay set v hi

end Sys2Proof.Machine
end

