-- ==== Sys2Proof/Machine/Slice.lean ====
section
/-! DEFINITION. Machine/Slice.lean: requests at their home slice: reads, writes, fills, atomics under pins, reservations, discards, hints, tag
loss (08, 09). A request is named by its identifier in `Part.net`. -/

namespace Sys2Proof.Machine

/-- Earlier requests of the same tile and ordering identifier to the same slice (R477, R478). -/
def Part.ahead (p : Part) (q : Req) : List Req :=
  (p.net.takeWhile fun r => r.id ≠ q.id).filter fun r =>
    r.tile = q.tile && r.oid = q.oid && r.dev.isNone && p.served r.sector = p.served q.sector

/-- The request is a waiter on the miss entry of its line (R385). -/
def Part.onEntry (p : Part) (r : Req) : Bool :=
  (p.slice (p.served r.sector)).entries.any fun e => e.line = lineOf r.sector && e.waiters.contains r.id

/-- The request is queued under the pin of its line (R437). -/
def Part.onPin (p : Part) (r : Req) : Bool :=
  (p.slice (p.served r.sector)).pins.any fun e => e.line = lineOf r.sector && e.queue.contains r.id

/-- A request waits at the slice for a way, an entry or a pin. -/
def Part.stalled (p : Part) (r : Req) : Bool :=
  let z := p.slice (p.served r.sector)
  z.waitWay.contains r.id || z.waitEntry.contains r.id || z.waitPin.contains r.id

/-- A request may be taken by its slice: every earlier one of its tile and ordering identifier to the slice is performed, or is a waiter on the entry
or queued under the pin that this one joins (R477); no request to its sector waits at the slice for a way, an entry or a pin (R431). -/
def Part.inOrder (p : Part) (q : Req) : Bool :=
  ((p.ahead q).all fun r => r.state = ReqState.performed || (lineOf r.sector = lineOf q.sector &&
    (p.onEntry r || (p.onPin r && match q.kind with | .atomic _ _ _ _ => true | _ => false)))) &&
  (q.kind = .discard || !(p.net.any fun r => r.id ≠ q.id && r.dev.isNone && r.sector = q.sector && p.stalled r))

/-- An earlier request of its tile and identifier waits on the miss entry of the line: this one joins it, too. -/
def Part.joins (p : Part) (q : Req) : Bool := (p.ahead q).any p.onEntry

/-- A lease of another group holds writes to the line (R444). -/
def Part.leasedByOther (p : Part) (s : Nat) (q : Req) : Bool :=
  (p.slice s).leases.any fun e => e.line = lineOf q.sector && !(e.tile = q.tile && e.group = q.group)

/-- The request waits at the slice. -/
def Part.waits (p : Part) (q : Req) : Part := p.setReq { q with state := .waiting }

/-- The request has been performed at the slice: the reply carries its data, lane values and mark. -/
def Part.answers (p : Part) (q : Req) (data : List Byte) (vals : List (Nat × W64)) (mark : Option RegMark) : Part :=
  p.setReq { q with state := .performed, data, vals, mark }

/-- The store-buffer entry of a performed request is free (R479); the request is done. -/
def Part.sbDone (p : Part) (q : Req) : Part :=
  let p := p.dropReq q.id
  match q.sb with
  | some e => p.modTile q.tile fun x => { x with sb := x.sb.filter fun c => c.id ≠ e }
  | none => p

/-- A read of a sector is served (R382, R392): its data with the poison mark, or zero or the DEAD_READ mark from a dead line. Poison of a
SHARED_IMM window opens a repair (R539). -/
def Part.serveRead (p : Part) (s : Nat) (q : Req) : Part :=
  let x := p.phys q.sector
  let w := p.winAt q.sector
  if p.isDead x then
    if (w.map p.winStrict).getD false then
      ((p.inc LLC_DEAD_READS_STRICT 1 s).set1 LLC_EVENTS_DEAD_STRICT s).answers q (p.bytesAt x 64) [] (some .deadRead)
    else (p.inc LLC_DEAD_READS_COUNT 1 s).answers q (p.bytesAt x 64) [] none
  else
    let bad := p.poisoned x
    let p := match w with
      | some n => if bad && p.winShared n then p.openRepair n q.sector else p
      | none => p
    p.answers q (p.bytesAt x 64) [] (if bad then some .poison else none)

/-- The lane values of a reservation load (R438). -/
def laneValues (n : Nat) (q : Req) (bs : List Byte) : List (Nat × W64) :=
  q.lanes.map fun c => (c.lane, BitVec.ofNat 64 (leAt bs (c.addr % 64) n))

/-- The reservation entry of a group leaves, wherever it is. -/
def Part.dropRsvEntry (p : Part) (t g : Nat) : Part :=
  { p with slices := p.slices.map fun c => (c.1, { c.2 with rsvs := c.2.rsvs.filter fun r => !(r.tile = t && r.group = g) }) }

/-- A reservation entry is made (R441): the oldest leaves a full table; the entry guards its line when no other entry of the set does (R443); a
qualified group gets a lease (R444). -/
def Slice.reserve (z : Slice) (t g l : Nat) : Slice :=
  let rsvs := if 256 ≤ z.rsvs.length then z.rsvs.drop 1 else z.rsvs
  let guard := !(rsvs.any fun r => r.guarded && r.set = setOf l)
  let z : Slice := { z with rsvs := rsvs ++ [({ tile := t, group := g, line := l, set := setOf l, guarded := guard } : Rsv)] }
  match z.qualified.find? fun c => c.2.2 = l with
  | some c =>
    if c.1 = t && c.2.1 = g && z.leases.length < 4 && !(z.leases.any fun e => e.line = l) then
      { z with leases := z.leases ++ [({ tile := t, group := g, line := l } : Lease)], qualified := z.qualified.filter (· ≠ c) }
    else z
  | none => z

/-- An LDRSV is served (R438, R441, R443, R444): values as a read, and when it names the reserved line a reservation entry, its guard, and a
lease if the group is the first to qualify. -/
def Part.serveLdrsv (p : Part) (s : Nat) (q : Req) (wide holds : Bool) : Part :=
  let x := p.phys q.sector
  let l := lineOf q.sector
  let p := p.inc LLC_RSV_LOADS 1 s
  let p := if !holds then p else
    let p := p.dropRsvEntry q.tile q.group
    p.modSlice s fun z => z.reserve q.tile q.group l
  let bs := p.bytesAt x 64
  if p.isDead x then
    if ((p.winAt q.sector).map p.winStrict).getD false then
      ((p.inc LLC_DEAD_READS_STRICT 1 s).set1 LLC_EVENTS_DEAD_STRICT s).answers q bs (laneValues (if wide then 8 else 4) q bs) (some .deadRead)
    else (p.inc LLC_DEAD_READS_COUNT 1 s).answers q bs (laneValues (if wide then 8 else 4) q bs) none
  else p.answers q bs (laneValues (if wide then 8 else 4) q bs) (if p.poisoned x then some .poison else none)

/-- A sector request of a STCND is served (R439, R444): the first active lane on the reserved line stores, if the reservation is held; the
reservation and the group's lease end. With its last request the STCND is counted; eight failures in a row qualify the group for a lease. -/
def Part.serveStcnd (p : Part) (s : Nat) (q : Req) (wide : Bool) : Part :=
  let l := lineOf q.sector
  let n := if wide then 8 else 4
  let held := (p.slice s).rsvs.any fun r => r.tile = q.tile && r.group = q.group && r.line = l
  let more := p.net.any fun r => r.id ≠ q.id && r.tile = q.tile && r.group = q.group && (match r.kind with | .stcnd _ => r.state ≠ ReqState.performed | _ => false)
  let bad := p.poisoned (p.phys q.sector)
  let p := match held && !bad, q.lanes with
    | true, c :: _ =>
      let p := p.performStore s q.sector ((leBytes n c.val.toNat).mapIdx fun i b => (c.addr + i, b))
      p.inc LLC_RSV_SUCCESS 1 s
    | _, _ => p
  let win := held && !bad && !q.lanes.isEmpty
  let vals := q.lanes.mapIdx fun i c => (c.lane, if win && i = 0 then (0 : W64) else 1)
  let p := p.modSlice s fun z => { z with leases := z.leases.filter fun e => !(e.tile = q.tile && e.group = q.group) }
  let p := if win || !more then p.dropRsvEntry q.tile q.group else p
  let y := p.group q.tile q.group
  let won := win || y.scWon
  let fails : Nat := match y.scFails with
    | some (l', k) => if l' = l then k + 1 else 1
    | none => 1
  let p :=
    if more then p.setGroup q.tile q.group { y with scWon := won }
    else if won then p.setGroup q.tile q.group { y with scWon := false, scFails := none }
    else
      let p := (p.inc LLC_RSV_FAIL 1 s).setGroup q.tile q.group { y with scFails := if 8 ≤ fails then none else some (l, fails) }
      if 8 ≤ fails then p.modSlice s fun z => { z with qualified := z.qualified.filter (· ≠ (q.tile, q.group, l)) ++ [(q.tile, q.group, l)] } else p
  p.answers q [] vals none

/-- An atomic or reduction is served: ATOM lanes get old values or the poison mark; RED and RED.SEC free their store-buffer entry (R430,
R433). -/
def Part.serveAtomic (p : Part) (s : Nat) (q : Req) (o : AtomOp) (ty : AtomTy) (cas returns : Bool) : Part :=
  let (p, vals, skipped) := p.performAtomic s q.sector o ty cas returns q.lanes
  if returns then p.answers q [] vals (if skipped then some .poison else none) else p.sbDone q

/-- A waiting request is performed when the fill of its line arrives (R386, R432). -/
def Part.performWaiter (p : Part) (s id : Nat) : Part :=
  match p.req id with
  | none => p
  | some q => match q.kind with
    | .load _ _ _ => p.serveRead s q
    | .store bs => (p.performStore s q.sector bs).sbDone q
    | .atomic o ty cas ret => p.serveAtomic s q o ty cas ret
    | .ldrsv wide holds => p.serveLdrsv s q wide holds
    | .stcnd wide => p.serveStcnd s q wide
    | .discard | .hint | .claim _ => p.setReq { q with state := .sent }

/-- Whether a request changes the line (R386: waiting atomics are treated as waiting stores). -/
def ReqKind.writes : ReqKind → Bool
  | .store _ => true
  | .atomic _ _ _ _ => true
  | .stcnd _ => true
  | _ => false

/-- Some way of the set could hold a line of the window at all (R759, R832). -/
def Part.canAllocate (p : Part) (s set : Nat) (win : Option Nat) : Bool :=
  match win with
  | none => false
  | some w => (List.range 16).any fun v => p.usable s set w v

/-- A miss (R383–R385): the request joins the line's miss entry or allocates one and reserves a way; without an entry or a way it waits. A line
with no way it could take is fetched into an entry alone (way 16; R759, R832). -/
def Part.miss (p : Part) (s : Nat) (q : Req) : Part :=
  let l := lineOf q.sector
  let set := setOf l
  let z := p.slice s
  match z.entries.find? fun e => e.line = l with
  | some e =>
    if 64 ≤ e.waiters.length then
      ((p.inc LLC_MERGE_WAITER_FULL 1 s).waits q).modSlice s fun z => { z with waitEntry := insNat z.waitEntry q.id }
    else
      ((p.inc LLC_MERGE_MERGED 1 s).waits q).modSlice s fun z =>
        { z with entries := z.entries.map fun f => if f.line = l then { f with waiters := f.waiters ++ [q.id] } else f }
  | none =>
    if 64 ≤ z.entries.length || 4 ≤ (z.entries.filter fun e => e.set = set).length then
      ((p.inc LLC_MERGE_ENTRY_WAIT 1 s).waits q).modSlice s fun z => { z with waitEntry := insNat z.waitEntry q.id }
    else
      let win := p.winAt l
      let open' (p : Part) (w : Nat) : Part :=
        ((p.inc LLC_COUNTS_MISSES 1 s).waits q).modSlice s fun z =>
          { z with entries := z.entries ++ [{ line := l, set, way := w, win := win.getD 0, waiters := [q.id] }] }
      match z.find l with
      | some w => open' p w
      | none =>
        if !p.canAllocate s set win then open' p 16
        else match p.takeWay s set (win.getD 0) with
          | some (p, w) => open' p w
          | none => ((p.set1 LLC_EVENTS_FILL_WAIT s).waits q).modSlice s fun z => { z with waitWay := insNat z.waitWay q.id }

/-- A read hits when its sector is valid in a resident or Pinned way (R382, R388). -/
def Part.hit (p : Part) (s a : Nat) : Bool :=
  p.inPin a || (match (p.slice s).find (lineOf a) with
    | some w => ((p.slice s).way (setOf (lineOf a)) w).isValid a
    | none => false)

/-- An error found in the resident sector a read touches (R413). The second part says whether the request must be served as a miss. -/
def Part.sliceErr (p : Part) (s a : Nat) (err : EccErr) (o : Owner) : Part × Bool :=
  let l := lineOf a
  let x := p.phys (sectorOf a)
  match err with
  | .ok => (p, false)
  | .ce => (p.inc LLC_ECC_CE 1 s, false)
  | .tagUe => ((p.inc LLC_ECC_TAG_UE 1 s).set1 LLC_EVENTS_TAG_UE s, false)
  | .ue =>
    match (p.slice s).find l with
    | some w =>
      let y := (p.slice s).way (setOf l) w
      if y.dirty.getLsbD (y.bit a) then
        let p := (p.inc LLC_ECC_UE_DIRTY 1 s).set1 LLC_EVENTS_POISONED s
        ({ p with poison := insNat p.poison x }.log 1 5 6 s 0 0 l o, false)
      else
        let p := (p.inc LLC_ECC_UE_CLEAN 1 s).set1 LLC_EVENTS_UE_CLEAN s
        let reserved := (p.slice s).entries.any fun e => e.set = setOf l && e.way = w
        if reserved then (p.modSlice s fun z => z.putWay (setOf l) w { y with valid := y.valid &&& ~~~((1 : BitVec 8) <<< y.bit a) }, true)
        else (p.evict s (setOf l) w, true)
    | none =>
      if p.inPin a then
        let p := (p.inc LLC_ECC_UE_DIRTY 1 s).set1 LLC_EVENTS_POISONED s
        ({ p with poison := insNat p.poison x }.log 1 5 6 s 0 0 l o, false)
      else (p, false)

/-- Pinned lines homed on a remapped slice read as poisoned when L is above 6 (R759). -/
def Part.pinLost (p : Part) (a : Nat) : Bool := p.inPin a && 6 < p.lockL && p.served a ≠ homeSlice a

/-- A read arrives at its slice (R382–R385, R392). -/
def Part.readArrives (p : Part) (q : Req) (err : EccErr) : Part :=
  let s := p.served q.sector
  let l := lineOf q.sector
  if p.pinLost q.sector then p.answers q (List.replicate 64 0) [] (some .poison)
  else if p.isDead (p.phys l) then p.serveRead s q
  else
    let (p, redo) := if p.hit s q.sector then p.sliceErr s q.sector err (p.tileOwner q.tile) else (p, false)
    if p.hit s q.sector && !redo then
      if p.joins q && !p.inPin l then p.miss s q else (p.inc LLC_COUNTS_HITS 1 s).serveRead s q
    else p.miss s q

/-- A dead line that is about to be written takes a way of its own (R393). None: it must wait for one. -/
def Part.wayForDead (p : Part) (s l : Nat) : Option Part :=
  if p.inPin l || !p.canAllocate s (setOf l) (p.winAt l) then some p
  else match (p.slice s).find l with
    | some _ => some p
    | none => (p.takeWay s (setOf l) ((p.winAt l).getD 0)).map fun (p, w) =>
        p.modSlice s fun z => z.putWay (setOf l) w { kind := .line, line := l, win := (p.winAt l).getD 0 }

/-- The request waits for an eligible way (R381). -/
def Part.waitWay (p : Part) (s : Nat) (q : Req) : Part :=
  ((p.set1 LLC_EVENTS_FILL_WAIT s).waits q).modSlice s fun z => { z with waitWay := insNat z.waitWay q.id }

/-- A line that no way holds is written back at once (R759, R832). -/
def Part.unheld (p : Part) (s l : Nat) : Part :=
  if ((p.slice s).find l).isNone && !p.inPin l && !((p.slice s).pins.any fun e => e.line = l) then p.writeBackLine l else p

/-- A writing request whose line is resident and writable is performed by `go`, told whether it hit; a Pair expands first (R398), a dead line
becomes live (R393), anything else is a miss (R387, R432). `full` says that the request covers its whole sector. -/
def Part.writeArrives (p : Part) (q : Req) (full : Bool) (go : Bool → Part → Part) : Part :=
  let s := p.served q.sector
  let l := lineOf q.sector
  if p.pinLost q.sector then p.sbDone q
  else if p.inPin l then go true p
  else if p.isDead (p.phys l) then
    match p.wayForDead s l with
    | some p => (go false p).unheld s l
    | none => p.waitWay s q
  else match (p.slice s).find l with
    | some w =>
      match p.expand s l with
      | none => p.waitWay s q
      | some p =>
        if ((p.slice s).way (setOf l) (((p.slice s).find l).getD w)).isValid q.sector && !p.joins q then go true p
        else if full && !((p.slice s).entries.any fun e => e.line = l) then go false p
        else p.miss s q
    | none =>
      if full && !((p.slice s).entries.any fun e => e.line = l) && p.canAllocate s (setOf l) (p.winAt l) then
        match p.takeWay s (setOf l) ((p.winAt l).getD 0) with
        | some (p, w) => go false (p.modSlice s fun z => z.putWay (setOf l) w { kind := .line, line := l, win := (p.winAt l).getD 0 })
        | none => p.waitWay s q
      else p.miss s q

/-- A request served as a hit is counted. -/
def Part.countHit (p : Part) (s : Nat) (hit : Bool) : Part := if hit then p.inc LLC_COUNTS_HITS 1 s else p

/-- An atomic on a resident line: its way carries a pin and the request queues under it (R435–R437). -/
def Part.pinAtomic (p : Part) (q : Req) (hit : Bool) : Part :=
  let s := p.served q.sector
  let l := lineOf q.sector
  let z := p.slice s
  match z.pins.find? fun e => e.line = l with
  | some e =>
    if 64 ≤ e.queue.length then p
    else ((p.countHit s hit).waits q).modSlice s fun z => { z with pins := z.pins.map fun f => if f.line = l then { f with queue := f.queue ++ [q.id] } else f }
  | none =>
    if 2 ≤ (z.pins.filter fun e => e.set = setOf l).length then
      ((p.inc LLC_ATOM_PIN_WAITS 1 s).waits q).modSlice s fun z => { z with waitPin := insNat z.waitPin q.id }
    else ((p.countHit s hit).waits q).modSlice s fun z =>
      { z with pins := z.pins ++ [{ line := l, set := setOf l, way := ((z.find l).getD 16), queue := [q.id] }] }

/-- The request at the front of its pin's queue is performed; the pin is released when the queue is empty (R435). -/
def Part.pinnedPerform (p : Part) (q : Req) (o : AtomOp) (ty : AtomTy) (cas ret : Bool) : Part :=
  let s := p.served q.sector
  let l := lineOf q.sector
  let p := p.modSlice s fun z => { z with pins :=
    (z.pins.map fun f => if f.line = l then { f with queue := f.queue.filter (· ≠ q.id) } else f).filter fun f => !f.queue.isEmpty }
  p.serveAtomic s q o ty cas ret

/-- A request is offered to its slice, whatever its kind. -/
def Part.serve (p : Part) (q : Req) (err : EccErr) : Part :=
  let s := p.served q.sector
  match q.kind with
  | .load _ _ _ => p.readArrives q err
  | .store bs => p.writeArrives q (bs.length = 64) fun h p => ((p.countHit s h).performStore s q.sector bs).sbDone q
  | .atomic _ _ _ _ => p.writeArrives q false fun h p => p.pinAtomic q h
  | .ldrsv wide holds =>
    if p.pinLost q.sector then p.answers q (List.replicate 64 0) [] (some .poison)
    else if p.isDead (p.phys q.sector) then p.serveLdrsv s q wide holds
    else p.writeArrives q false fun h p => (p.countHit s h).serveLdrsv s q wide holds
  | .stcnd wide => p.writeArrives q false fun h p => (p.countHit s h).serveStcnd s q wide
  | .discard | .hint | .claim _ => p

/-- A request of the given shape, in flight to a slice of this part and in its turn. -/
def Part.arrival (p : Part) (id : Nat) (ok : ReqKind → Bool) : Option Req :=
  (p.req id).filter fun q => q.state = ReqState.sent && q.dev.isNone && ok q.kind && p.inOrder q

/-- SLICE_READ (R382, R383). -/
def execSliceRead (id : Nat) (err : EccErr) (s : State) : Host.Outcome State Fault Refusal :=
  s.onPart fun p => match p.arrival id fun k => match k with | .load _ _ _ => true | _ => false with
    | none => p
    | some q => p.serve q err

/-- SLICE_WRITE (R387, R388, R393, R398, R444). -/
def execSliceWrite (id : Nat) (s : State) : Host.Outcome State Fault Refusal :=
  s.onPart fun p => match p.arrival id fun k => match k with | .store _ => true | _ => false with
    | none => p
    | some q => if p.leasedByOther (p.served q.sector) q then p else p.serve q .ok

/-- SLICE_ATOMIC (R429, R435): the first time the request queues under the pin of its line, then it is performed from the front. -/
def execSliceAtomic (id : Nat) (s : State) : Host.Outcome State Fault Refusal :=
  s.onPart fun p => match p.req id with
    | none => p
    | some q => match q.kind with
      | .atomic o ty cas ret =>
        let sl := p.served q.sector
        if p.leasedByOther sl q then p
        else if (p.slice sl).pins.any fun e => e.line = lineOf q.sector && e.queue.head? = some id then p.pinnedPerform q o ty cas ret
        else if q.state = .sent && q.dev.isNone && p.inOrder q then p.serve q .ok
        else p
      | _ => p

/-- SLICE_RESERVATION (R438, R441, R443). -/
def execSliceReservation (id : Nat) (s : State) : Host.Outcome State Fault Refusal :=
  s.onPart fun p => match p.arrival id fun k => match k with | .ldrsv _ _ => true | _ => false with
    | none => p
    | some q => p.serve q .ok

/-- SLICE_STCND (R439). -/
def execSliceStcnd (id : Nat) (s : State) : Host.Outcome State Fault Refusal :=
  s.onPart fun p => match p.arrival id fun k => match k with | .stcnd _ => true | _ => false with
    | none => p
    | some q => if p.leasedByOther (p.served q.sector) q then p else p.serve q .ok

/-- A waiting request leaves the list it waits in and is offered to its slice again; nothing happens while it would wait still. -/
def Part.retry (p : Part) (id : Nat) (sel : Slice → List Nat) (drop : Slice → Slice) : Part :=
  match p.req id with
  | none => p
  | some q =>
    let s := p.served q.sector
    if (sel (p.slice s)).contains id && (p.ahead q).all (fun r => r.state = ReqState.performed || p.onEntry r) then
      let r := (p.modSlice s drop).serve { q with state := .sent } .ok
      let z := r.slice s
      if z.waitWay.contains id || z.waitEntry.contains id || z.waitPin.contains id then p else r
    else p

/-- FILL_WAIT_END (R381). -/
def execFillWaitEnd (id : Nat) (s : State) : Host.Outcome State Fault Refusal :=
  s.onPart fun p => p.retry id (fun z => z.waitWay) fun z => { z with waitWay := delNat z.waitWay id }
/-- MISS_ENTRY_WAIT_END (R384, R385). -/
def execMissEntryWaitEnd (id : Nat) (s : State) : Host.Outcome State Fault Refusal :=
  s.onPart fun p => p.retry id (fun z => z.waitEntry) fun z => { z with waitEntry := delNat z.waitEntry id }
/-- PIN_WAIT_END (R436). -/
def execPinWaitEnd (id : Nat) (s : State) : Host.Outcome State Fault Refusal :=
  s.onPart fun p => p.retry id (fun z => z.waitPin) fun z => { z with waitPin := delNat z.waitPin id }

/-- The sectors of a fill that the way does not hold are read from the line's pseudo-channel (R383, R386, R535). -/
def Part.fetch (p : Part) (l : Nat) (missing : Nat → Bool) (err : EccErr) (errSector : Nat) (o : Owner := {}) : Part :=
  (List.range 4).foldl (fun p k => if missing k then p.hbmRead (p.phys l + 64 * k) (if k = errSector then err else .ok) o else p) p

/-- FILL_COMPLETE (R386, R432, R397): the way is written, waiting stores and atomics are merged in join order, reads get their data in join
order; with no waiting write the pair is compressed if it fits. -/
def execFillComplete (line : Nat) (err : EccErr) (errSector : Fin 4) (s : State) : Host.Outcome State Fault Refusal :=
  s.onPart fun p =>
    let sl := p.served line
    match (p.slice sl).entries.find? fun e => e.line = line with
    | none => p
    | some e =>
      let x := (p.slice sl).way e.set e.way
      let old : Way := if e.way < 16 && x.has line then x else { kind := .line, line := line, win := e.win }
      let o : Owner := match e.waiters.head?.bind p.req with
        | some q => p.tileOwner q.tile
        | none => {}
      let p := p.fetch line (fun k => !old.isValid (line + 64 * k)) err errSector o
      let p := p.modSlice sl fun z => { z with entries := z.entries.filter fun f => f.line ≠ line }
      let p := if e.way < 16 then p.modSlice sl fun z => z.putWay e.set e.way { old with valid := old.valid ||| 15 } else p
      let isW (id : Nat) : Bool := match p.req id with | some q => q.kind.writes | none => false
      let p := (e.waiters.filter isW).foldl (fun p id => p.performWaiter sl id) p
      let p := if e.way < 16 then (if e.waiters.any isW then p else p.tryPair sl line e.way) else p.writeBackLine line
      (e.waiters.filter fun id => !isW id).foldl (fun p id => p.performWaiter sl id) p

/-- RESERVATION_GUARD_EXPIRY (R443). -/
def execReservationGuardExpiry (line : Nat) (s : State) : Host.Outcome State Fault Refusal :=
  s.onPart fun p => p.modSlice (p.served line) fun z =>
    { z with rsvs := z.rsvs.map fun r => if r.line = line then { r with guarded := false } else r }

/-- LEASE_EXPIRY (R444): held writes proceed. -/
def execLeaseExpiry (line : Nat) (s : State) : Host.Outcome State Fault Refusal :=
  s.onPart fun p => p.modSlice (p.served line) fun z => { z with leases := z.leases.filter fun e => e.line ≠ line }

/-- A line leaves its way without write-back; the partner of a Pair stays as a Line (R390). -/
def Slice.drop (z : Slice) (l : Nat) : Slice :=
  match z.find l with
  | none => z
  | some w =>
    let x := z.way (setOf l) w
    if x.kind = .pair then
      let hi := x.line ≠ l
      z.putWay (setOf l) w { kind := .line, line := partnerOf l, win := x.win
                             valid := if hi then x.valid &&& 15 else x.valid >>> 4
                             dirty := if hi then x.dirty &&& 15 else x.dirty >>> 4 }
    else z.putWay (setOf l) w {}

/-- A line is made dead (R390, R391). -/
def Part.kill (p : Part) (l : Nat) : Part :=
  let x := p.phys l
  let p := { p with poison := p.poison.filter fun y => !(decide (x ≤ y) && decide (y < x + 256)) }
  let p := if p.inPin l then p.putMems ((List.range 256).map fun i => (x + i, (0 : Byte))) else p.dropDirty x
  { p with dead := insNat p.dead x }

/-- Stores of the line that the slice holds go with it (R390). -/
def Part.dropHeldStores (p : Part) (s l : Nat) : Part :=
  let held := p.net.filter fun r => r.dev.isNone && lineOf r.sector = l && p.stalled r && match r.kind with | .store _ => true | _ => false
  held.foldl (fun p r => (p.modSlice s fun z => { z with waitWay := delNat z.waitWay r.id, waitEntry := delNat z.waitEntry r.id }).sbDone r) p

/-- SLICE_DISCARD (R390, R391): it waits for a miss entry or a pin on the line. -/
def execSliceDiscard (id : Nat) (s : State) : Host.Outcome State Fault Refusal :=
  s.onPart fun p => match p.arrival id fun k => match k with | .discard => true | _ => false with
    | none => p
    | some q =>
      let sl := p.served q.sector
      let l := lineOf q.sector
      if (p.slice sl).entries.any (fun e => e.line = l) || (p.slice sl).pins.any (fun e => e.line = l) || p.leasedByOther sl q then p
      else (((((p.dropHeldStores sl l).modSlice sl fun z => z.drop l).kill l).inc LLC_DEAD_READS_DISCARDS 1 sl).wrote sl l).sbDone q

/-- PREFETCH_HINT (R412). -/
def execPrefetchHint (id : Nat) (s : State) : Host.Outcome State Fault Refusal :=
  s.onPart fun p => match p.arrival id fun k => match k with | .hint => true | _ => false with
    | none => p
    | some q =>
      let sl := p.served q.sector
      let l := lineOf q.sector
      let set := setOf l
      let p := (p.inc LLC_PREFETCH_HINTS 1 sl).dropReq id
      let z := p.slice sl
      if p.inPin l || p.isDead (p.phys l) || (z.find l).isSome || z.entries.any (fun e => e.line = l) then p
      else if 48 ≤ z.entries.length || 4 ≤ (z.entries.filter fun e => e.set = set).length || !p.canAllocate sl set (p.winAt l) then
        p.inc LLC_PREFETCH_DROPPED 1 sl
      else match p.takeWay sl set ((p.winAt l).getD 0) with
        | none => p.inc LLC_PREFETCH_DROPPED 1 sl
        | some (p, w) =>
          (p.inc LLC_PREFETCH_FETCHED 1 sl).modSlice sl fun z =>
            { z with entries := z.entries ++ [{ line := l, set, way := w, win := (p.winAt l).getD 0 }] }

/-- LLC_LAT_UPDATE (R424): the latencies of the last complete millisecond, as measured. -/
def execLlcLatUpdate (sl : SliceId) (meanHit meanMiss maxMiss : Nat) (s : State) : Host.Outcome State Fault Refusal :=
  s.onPart fun p => ((p.wr LLC_LAT_MEAN_HIT meanHit sl).wr LLC_LAT_MEAN_MISS meanMiss sl).wr LLC_LAT_MAX_MISS maxMiss sl

end Sys2Proof.Machine
end

