-- ==== Sys2Proof/Machine/Direct.lean ====
section
/-! DEFINITION. Machine/Direct.lean: accesses the part makes for its own purposes, for remote requests, for the walker, weight channels and copy
engines, each performed at its home slice in one step (log 13); the sequence table; poison of weight windows (02, 08, 12). -/

namespace Sys2Proof.Machine

/-- An error that an access of the part's own meets (R413, R535): in the sector at `sec`, in its slice where that holds the sector when the access
begins, else in HBM. `o` owns the work. -/
structure Met where
  err  : EccErr := .ok
  sec  : Nat := 0
  held : Bool := false
  o    : Owner := {}
deriving DecidableEq, Repr

def Part.meets (p : Part) (a : Nat) (err : EccErr) (o : Owner := {}) : Met :=
  { err, sec := sectorOf a, held := p.hit (p.served (sectorOf a)) (sectorOf a), o }

/-- What HBM finds in the sector at `sec`. -/
def Met.hbm (m : Met) (sec : Nat) : EccErr := if !m.held && m.sec = sec then m.err else .ok

/-- Way `w` of its set holds the whole line `l`: the sectors it lacks are read from HBM (R383, R386). -/
def Part.loadLine (p : Part) (s l w : Nat) (m : Met) : Part :=
  let x := (p.slice s).way (setOf l) w
  let old : Way := if x.has l then x else { kind := .line, line := l, win := (p.winAt l).getD 0 }
  (p.fetch l (fun k => !old.isValid (l + 64 * k)) (m.hbm (l + (m.sec - l) / 64 * 64)) ((m.sec - l) / 64) m.o).modSlice s fun z =>
    z.putWay (setOf l) w { old with valid := old.valid ||| 15 }

/-- An access of the part's own that misses, with its fill, in one step: the line takes a way (R378, R383, R397). Where the line has a miss entry, or
none or no way is free, or `alloc` is false, the sector alone is read and nothing is kept. -/
def Part.fillNow (p : Part) (s sec : Nat) (alloc : Bool) (m : Met := {}) : Part :=
  let l := lineOf sec
  let z := p.slice s
  let room := alloc && !(z.entries.any fun e => e.line = l) && z.entries.length < 64 && (z.entries.filter fun e => e.set = setOf l).length < 4
  let way := if !room then none else match z.find l with
    | some w => some (p, w)
    | none => if p.canAllocate s (setOf l) (p.winAt l) then p.takeWay s (setOf l) ((p.winAt l).getD 0) else none
  match way with
  | some (p, w) => ((p.inc LLC_COUNTS_MISSES 1 s).loadLine s l w m).tryPair s l w
  | none => p.hbmRead (p.phys sec) (m.hbm sec) m.o

/-- A sector is read at its home slice (R392, R413, R414, R539, R835): data, and the mark it carries. -/
def Part.readVia (alloc : Bool) (p : Part) (a : Nat) (m : Met := {}) : Part × List Byte × Option RegMark :=
  let sec := sectorOf a
  let s := p.served sec
  let x := p.phys sec
  let w := p.winAt sec
  if p.pinLost sec then (p, List.replicate 64 0, some .poison)
  else if p.isDead x then
    if (w.map p.winStrict).getD false then
      ((p.inc LLC_DEAD_READS_STRICT 1 s).set1 LLC_EVENTS_DEAD_STRICT s, p.bytesAt x 64, some .deadRead)
    else (p.inc LLC_DEAD_READS_COUNT 1 s, p.bytesAt x 64, none)
  else
    let held := p.hit s sec
    let (p, redo) := if held && m.held && m.sec = sec then p.sliceErr s sec m.err m.o else (p, false)
    let p := if held && !redo then p.inc LLC_COUNTS_HITS 1 s else p.fillNow s sec alloc m
    let bad := p.poisoned x
    let p := match w with
      | some n => if bad && p.winShared n then p.openRepair n sec else p
      | none => p
    (p, p.bytesAt x 64, if bad then some .poison else none)

def Part.readSector (p : Part) (a : Nat) (m : Met := {}) : Part × List Byte × Option RegMark := p.readVia true a m

/-- `n` bytes from `a`, sector by sector: the bytes, and the sectors that carried poison. -/
def Part.readRange (p : Part) (a n : Nat) : Part × List Byte × List Nat :=
  let secs := if n = 0 then [] else (List.range ((sectorOf (a + n - 1) - sectorOf a) / 64 + 1)).map fun i => sectorOf a + 64 * i
  let (p, bytes, bad) := secs.foldl (fun (q : Part × List Byte × List Nat) c =>
    let (p, bs, m) := q.1.readSector c
    (p, q.2.1 ++ bs, if m = some .poison then q.2.2 ++ [c] else q.2.2)) (p, [], [])
  (p, Sys2Proof.Machine.slice bytes (a - sectorOf a) n, bad)

/-- The line of a sector as an operation that writes it needs it: in one way, alone, with the sector valid unless all of it is written (R387, R393,
R398, R432). -/
def Part.homeLine (p : Part) (s sec : Nat) (full : Bool) (m : Met := {}) : Part :=
  let l := lineOf sec
  let p := (p.expand s l).getD p
  if p.hit s sec then p.inc LLC_COUNTS_HITS 1 s
  else if p.isDead (p.phys l) || (full && !((p.slice s).entries.any fun e => e.line = l)) then (p.wayForDead s l).getD p
  else p.fillNow s sec true m

/-- Bytes of one sector are stored at its home slice, with the fill that a part of a sector needs (R387, R393, R398). A line that finds no way is
written back at once. -/
def Part.storeNow (p : Part) (a : Nat) (bs : List (Nat × Byte)) (m : Met := {}) : Part :=
  let s := p.served a
  let l := lineOf a
  if p.pinLost a then p
  else ((p.homeLine s (sectorOf a) (bs.length = 64) m).performStore s a bs).unheld s l

/-- `bs` stored at `a`, one sector request after the other. -/
def Part.storeRange (p : Part) (a : Nat) (bs : List Byte) : Part :=
  let cells := bs.mapIdx fun i b => (a + i, b)
  (distinct' (cells.map fun c => sectorOf c.1)).foldl (fun p sec => p.storeNow sec (cells.filter fun c => sectorOf c.1 = sec)) p
where
  /-- Neighbouring equal elements once. -/
  distinct' : List Nat → List Nat
    | [] => []
    | x :: r => match distinct' r with
      | [] => [x]
      | y :: q => if x = y then y :: q else x :: y :: q

/-- A transaction other than this access has claimed a line of a range (R452). -/
def Part.claimed (p : Part) (a n : Nat) : Bool :=
  (List.range (n / 256 + 2)).any fun i =>
    let l := lineOf a + 256 * i
    decide (l < a + n) && (p.slice (p.served l)).claims.any fun c => c.line = l

/-! ## Sequence table (R101–R107) -/

def Part.seqBase (p : Part) : Nat := 256 * p.rd TICK_SEQ_BASE
def Part.workBase (p : Part) : Nat := p.seqBase + 0x20000

/-- Fields of an entry's first word (R101). -/
structure SeqHead where
  live    : Bool
  hold    : Bool
  faulted : Bool
  replay  : Bool
  vf      : Nat
  pos     : Nat
deriving DecidableEq, Repr

def seqHead (w : Nat) : SeqHead :=
  { live := w.testBit 0, hold := w.testBit 1, faulted := w.testBit 2, replay := w.testBit 3, vf := fld w 8 6, pos := fld w 32 32 }

/-- Bytes of an entry of a bank. -/
def Part.seqBytes (p : Part) (bank slot : Nat) : List Byte := p.bytesAt (p.phys (bank + 32 * slot)) 32

/-- Slots that a step runs (R102). -/
def SeqHead.runs (h : SeqHead) : Bool := h.live && !h.hold && !h.faulted

/-- REPLAY marked in a working-bank entry (R540). -/
def Part.markReplay (p : Part) (slot : Nat) : Part :=
  let a := p.workBase + 32 * slot
  let b := (p.byteAt (p.phys a)) ||| 8
  p.storeNow a [(a, b)]

/-- LAST_STATUS of a slot that the step runs takes a code, if it is still 0; the page of a page code goes into the log entry of its commit
(R228, R830). -/
def Part.slotStatus (p : Part) (slot code page : Nat) : Part :=
  let a := p.workBase + 32 * slot + 28
  if p.step.runs.contains slot && leNat (p.bytesAt (p.phys a) 2) = 0 then
    { p.storeNow a ((leBytes 2 code).mapIdx fun i b => (a + i, b)) with step := { p.step with slotPages := mput 0 p.step.slotPages slot page } }
  else p

/-- WEIGHT_DEGRADED (R543). -/
def mWeightDegraded := 0x90

/-- The consumer range of a tile (R541). -/
def Part.consumerSlots (p : Part) (t : Nat) : List Nat :=
  match (p.tile t).consumer with
  | none => p.step.runs
  | some (first, n) => p.step.runs.filter fun k => first ≤ k && k < first + n

/-- A tile consumes a poisoned sector of weight window `w` (R540, R541, R543): the functions are recorded; in the step program the slots of its
consumer range are marked, and the data comes as zeros without a mark. -/
def Part.consumeWeight (p : Part) (w t a : Nat) : Part :=
  if p.tileStep t then
    let slots := p.consumerSlots t
    let p := (distinct'' (slots.map fun k => mget 0 p.step.vfs k)).foldl (fun p f => if f = 0 then p else p.recordFn a f) p
    if p.rd LLC_WIN_ATTR_DEGRADED 0 w = 1 then slots.foldl (fun p k => p.slotStatus k mWeightDegraded 0) p
    else slots.foldl (fun p k => p.markReplay k) p
  else p.recordFn a (p.tileFn t)
where
  distinct'' (l : List Nat) : List Nat := l.foldl insNat []

/-- Data and mark as they reach a tile (R166, R540). -/
def Part.tileData (p : Part) (t a : Nat) (bs : List Byte) (m : Option RegMark) : Part × List Byte × Option RegMark :=
  match m, p.winAt a with
  | some .poison, some w =>
    if p.winShared w then
      let q := p.consumeWeight w t a
      if p.tileStep t then (q, List.replicate 64 0, none) else (q, bs, m)
    else (p, bs, m)
  | _, _ => (p, bs, m)

end Sys2Proof.Machine
end

