-- ==== Sys2Proof/Machine/Ports.lean ====
section
/-! DEFINITION. Machine/Ports.lean: Bellith ports: which port leads to a device, flits sent, a port that leaves ACTIVE (13). -/

namespace Sys2Proof.Machine

/-! ## Ports and routes (R575–R580, R583–R587) -/

/-- A port carries domain traffic: ACTIVE, not in ingest mode. -/
def Part.portUp (p : Part) (i : Nat) : Bool := p.rd BLK_STATUS_STATE i = 6 && p.rd BLK_CFG_MODE i ≠ 2

/-- The ACTIVE port that joins device `d`. -/
def Part.portTo (p : Part) (d : Nat) : Option Nat := (List.range 18).find? fun i => p.portUp i && p.rd BLK_STATUS_PEER_DEV i = d

/-- The port a message to `d` leaves by (R586): direct, else group first, index first, or the lowest-numbered member joined to this device. The
state of another device's ports is not seen here (DESIGN CHOICE, log 20). -/
def Part.portFor (p : Part) (d : Nat) : Option Nat :=
  let via (e : Nat) : Option Nat := if p.member e && e ≠ d && e ≠ p.dev then p.portTo e else none
  let far := p.rd GLOBAL_DOMAIN_CFG_TOPOLOGY = 2 && d / 16 ≠ p.dev / 16
  let own (e : Nat) : Bool := far || p.rd GLOBAL_DOMAIN_CFG_TOPOLOGY ≠ 2 || e / 16 = p.dev / 16
  if !p.member d || d = p.dev then none
  else (p.portTo d).orElse fun _ =>
    (if far then (via (16 * (d / 16) + p.dev % 16)).orElse fun _ => via (16 * (p.dev / 16) + d % 16) else none).orElse fun _ =>
      (List.range 64).findSome? fun e => if own e then via e else none

/-- A port can take a flit (R577, R580). -/
def Part.canSend (p : Part) (i : Nat) (data : Bool) : Bool :=
  let x := p.port i
  x.replay.length < 64 && (!data || 0 < x.credits)

/-- A flit enters the replay buffer of a port and is sent (R575, R577, R580, R612). -/
def Part.sendPort (p : Part) (i : Nat) (data : Bool) : Part :=
  let x := p.port i
  let p := p.setPort i { x with nextSeq := (x.nextSeq + 1) % 256, replay := x.replay ++ [x.nextSeq], credits := if data then x.credits - 1 else x.credits }
  let p := if data then p.inc BLK_TX_FLITS_FLITS 1 i else p
  p.emit (.flit i x.nextSeq)

/-- A control message to a device: it takes a flit of the port that leads there (R582). -/
def Part.sendCtrl (p : Part) (d : Nat) (o : Out) : Part :=
  let p := match p.portFor d with
    | some i => if p.canSend i false then p.sendPort i false else p
    | none => p
  p.emit o

/-- A request message to a device: it takes a data flit of the port that leads there. -/
def Part.sendData (p : Part) (d : Nat) (o : Out) : Part :=
  let p := match p.portFor d with
    | some i => if p.canSend i true then p.sendPort i true else p
    | none => p
  p.emit o

/-- The stream key of a tile's remote access (R496). -/
def Part.tileKey (p : Part) (t : Nat) (sid : BitVec 12) : RemoteKey :=
  { sender := p.dev, ingest := false, fn := Fin.ofNat 64 (p.tileFn t), step := p.tileStep t, sid }

/-- A remote read or atomic is sent (R596). -/
def Part.sendRemote (p : Part) (q : Req) : Part := match q.dev with
  | some d => if q.state = .sent then p.sendData d (.remoteRead d q.seq q.sector (p.tileKey q.tile (p.group q.tile q.group).sid) q.kind q.lanes) else p
  | none => p

/-! ## Messages not yet acknowledged end to end (R588, R589) -/

/-- The request message with a number to a device. -/
def isMessage (d seq : Nat) : Out → Bool
  | .remoteReq e n _ _ _ _ _ => e = d && n = seq
  | .remoteRead e n _ _ _ _ => e = d && n = seq
  | _ => false

/-- The numbers of the messages to a device that wait for their ACK or RDATA. -/
def Part.awaited (p : Part) (d : Nat) : List Nat :=
  (p.tiles.flatMap fun c => (c.2.unacked.filter fun u => u.dev = d).map (·.seq)) ++
  ((p.net.filter fun q => q.dev = some d && q.state = .sent).map (·.seq))

/-- The messages a device has not answered are sent again by the port that now leads to it. -/
def Part.resendTo (p : Part) (d : Nat) : Part :=
  match p.portFor d with
  | none => p
  | some i => foldL (p.awaited d) p fun n p => match p.out.find? (isMessage d n) with
    | some o => (p.sendPort i true).emit o
    | none => p

/-- The devices whose messages go by port `i`. -/
def Part.devsOf (p : Part) (i : Nat) : List Nat := (List.range 64).filter fun d => p.portFor d = some i

/-- A port leaves ACTIVE for state `st`: its replay buffer is emptied, and what it carried goes another way (R588). -/
def Part.portLeaves (p : Part) (i st : Nat) : Part :=
  let ds := if p.rd BLK_STATUS_STATE i = 6 || p.rd BLK_STATUS_STATE i = 7 then p.devsOf i else []
  let p := ((p.wr BLK_STATUS_STATE st i).wr BLK_STATUS_WIDTH 0 i).wr BLK_STATUS_LANES 0 i
  let x := p.port i
  let p := p.setPort i { x with replay := [], resends := 0, discarding := false, credits := 0 }
  foldL ds p fun d p => p.resendTo d

/-- A port that the Husk lets train and that is enabled starts training (R566, R571). -/
def Part.portTrains (p : Part) (i : Nat) : Part :=
  if p.rd BLK_CFG_ENABLE i = 1 && (p.rd HUSK_PORTS_ENABLE).testBit i then
    (p.setPort i { p.port i with quar := 0, fails := 0 }).wr BLK_STATUS_STATE 1 i
  else p

/-- BLK_CFG.ENABLE has been written (R571, R609). -/
def Part.portEnabled (p : Part) (i : Nat) (was : Bool) : Part :=
  let on := p.rd BLK_CFG_ENABLE i = 1
  if on && !was then (if p.rd BLK_STATUS_STATE i = 0 then p.portTrains i else p)
  else if !on && was then (p.portLeaves i 0).setPort i {}
  else p

end Sys2Proof.Machine
end

