-- ==== Sys2Proof/Machine/Flags.lean ====
section
/-! DEFINITION. Machine/Flags.lean: comparisons. The part has no condition flags and raises no floating-point flags (R254): a branch and a
compare evaluate their own condition (log 8). -/

namespace Sys2Proof.Machine

def cmpInt (o : CmpOp) (a b : Int) : Bool :=
  match o with
  | .eq => a = b
  | .ne => a ≠ b
  | .lt => a < b
  | .le => a ≤ b
  | .gt => b < a
  | .ge => b ≤ a

/-- Floating comparison: with a NaN every relation but ≠ is false. -/
def cmpFloat (o : CmpOp) (a b : FV) : Bool :=
  match o with
  | .eq => fvEq a b
  | .ne => !fvEq a b
  | .lt => fvLt a b
  | .le => fvLt a b || fvEq a b
  | .gt => fvLt b a
  | .ge => fvLt b a || fvEq a b

/-- A condition on two words. -/
def holds (c : Cond) (a b : W32) : Bool :=
  match c.kind with
  | .s32 => cmpInt c.op (sint 32 a.toNat) (sint 32 b.toNat)
  | .u32 => cmpInt c.op a.toNat b.toNat
  | .f32 => cmpFloat c.op (dec32 a) (dec32 b)

end Sys2Proof.Machine
end

