-- ==== Sys2Proof/Machine/Operands.lean ====
section
/-! DEFINITION. Machine/Operands.lean: operand forms of the SIMT core: lane values, register pairs, lane addresses, runs of registers (R135,
R427, R838), lane bytes of loads and stores. -/

namespace Sys2Proof.Machine

/-- A 64-bit operand in a register pair (R427); addresses use the same form (DEDUCED, log 10). -/
def Group.pair (y : Group) (r l : Nat) : W64 := (y.rg (r + 1) l) ++ (y.rg r l)

/-- Registers of a data operand of `n` bytes (R838). -/
def dataRegs (r n : Nat) : List Nat := (List.range ((n + 3) / 4)).map (r + ·)

/-- The bytes a store of `n` bytes takes from its registers (R838). -/
def Group.storeBytes (y : Group) (r n l : Nat) : List Byte :=
  (List.range n).map fun i => BitVec.ofNat 8 ((y.rg (r + i / 4) l).toNat / 256 ^ (i % 4))

/-- A load of `n` bytes writes its registers (R838). -/
def Group.loadLane (y : Group) (r n : Nat) (sx : Bool) (l : Nat) (bs : List Byte) : Group :=
  if n < 4 then y.putLane r l (extend sx (8 * n) (leNat bs))
  else (List.range (n / 4)).foldl (fun y i => y.putLane (r + i) l (BitVec.ofNat 32 (leAt bs (4 * i) 4))) y

/-- The registers of a load in a lane wait for request `id` (R140). -/
def Group.pendLane (y : Group) (r n l id : Nat) : Group :=
  (dataRegs r n).foldl (fun y i =>
    { y with pend := mins y.pend (32 * i + l) id, marks := mdel y.marks (32 * i + l) }) y

/-- Lowest active lane. -/
def Group.lowLane (y : Group) : Nat := (lanesOf y.act).headD 0

/-- Access sizes of R143; .SX only on 1 and 2 bytes (R838). -/
def sizeOk (n : Nat) (sx : Bool) : Bool := (n = 1 || n = 2 || n = 4 || n = 8 || n = 16) && (!sx || n ≤ 2)

/-- Bytes that several lanes write: where two lanes give one byte different values the spec does not say which is stored, and the byte is a
free value (log 2). -/
def mergeLanes (free : Nat → Byte) (l : List (Nat × List Byte)) : List (Nat × Byte) :=
  (l.flatMap fun c => c.2.mapIdx fun i b => (c.1 + i, b)).foldl
    (fun m c => match m.find? (fun d => d.1 = c.1) with
      | some d => if d.2 = c.2 then m else m.map fun e => if e.1 = c.1 then (e.1, free c.1) else e
      | none => m ++ [c]) []

/-- The free bytes of the next step, by place: a scratchpad offset, or a byte of memory here or on a device. -/
def Part.freeByte (p : Part) (place : Nat) : Byte := Config.freeByte p.freeCtr place
/-- The place of a byte of memory of a device (none: this one), and of a byte of the tile's own array. -/
def memPlace (dev : Option Nat) (a : Nat) : Nat := (dev.map (· + 1)).getD 0 * 2 ^ 48 + a
def arrPlace (o : Nat) : Nat := 2 ^ 60 + o

/-- The special values of S2R (R135); none for an undefined code (R136). -/
def Part.special (p : Part) (t g code l : Nat) : Option W32 :=
  let x := p.tile t
  let y := x.group g
  let b := x.block y.block
  let k : Option Kernel := match x.work with
    | .kernel i => p.kernel i
    | _ => none
  let w (n : Nat) : Option W32 := some (BitVec.ofNat 32 n)
  match code with
  | 0 => w l
  | 1 => w y.index
  | 2 => w b.groups
  | 3 => w (if k.isSome then b.index else 0)
  | 4 => w (match k with | some k => k.p.blocks | none => 1)
  | 5 => w (match k with | some k => k.p.argPtr | none => 0)
  | 6 => w (match k with | some k => k.p.argPtr / 2 ^ 32 % 2 ^ 16 | none => 0)
  | 7 => w (if k.isSome then b.base else 0)
  | 8 => w t
  | 9 => w (p.tileFn t)
  | 10 => w p.dev
  | 11 => some y.tick
  | _ => none

/-- Distinct elements in the order of first appearance. -/
def distinct (l : List Nat) : List Nat := l.foldl insNat []

/-- Insert into an ascending list of numbers. -/
def insAsc (x : Nat) : List Nat → List Nat
  | [] => [x]
  | y :: r => if x ≤ y then x :: y :: r else y :: insAsc x r
def sortAsc (l : List Nat) : List Nat := l.foldr insAsc []

end Sys2Proof.Machine
end

