-- ==== Sys2Proof/Machine/Simt.lean ====
section
/-! DEFINITION. Machine/Simt.lean: arithmetic, conversion, exchange, special functions, branches, special values, EXIT, TRAP and barriers of the
SIMT core (03, 05). -/

namespace Sys2Proof.Machine

/-- An instruction that computes one register per active lane (R141). -/
def Part.alu (p : Part) (t g vd : Nat) (srcs : List Nat) (f : Group → Nat → W32) : Part :=
  p.issue t g (vd :: srcs) srcs true fun p => (p.modGroup t g fun y => y.putLanes vd y.act (f y)).next8 t g

/-- The same where a lane's result may be a value the spec leaves open: `f` receives the lane's free value (log 2). -/
def Part.aluFree (p : Part) (t g vd : Nat) (srcs : List Nat) (f : W32 → Group → Nat → W32) : Part :=
  p.issue t g (vd :: srcs) srcs true fun p =>
    let p' := (p.modGroup t g fun y => y.putLanes vd y.act fun l => f (Config.freeWord (p.freeCtr + l)) y l).next8 t g
    { p' with freeCtr := p.freeCtr + 32 }

/-- An INT32 result; the spec does not say what one outside the range of INT32 is (R245; log 2). -/
def int32Or (free : W32) (x : Int) : W32 := if -2147483648 ≤ x && x ≤ 2147483647 then BitVec.ofInt 32 x else free

/-- IADD (R141, R245). -/
def execIadd (t : TileId) (g : GroupId) (vd va vb : Nat) (s : State) : Host.Outcome State Fault Refusal :=
  s.onPart fun p => p.aluFree t g vd [va, vb] fun z y l => int32Or z (sint 32 (y.rg va l).toNat + sint 32 (y.rg vb l).toNat)

/-- IMUL (R141, R245). -/
def execImul (t : TileId) (g : GroupId) (vd va vb : Nat) (s : State) : Host.Outcome State Fault Refusal :=
  s.onPart fun p => p.aluFree t g vd [va, vb] fun z y l => int32Or z (sint 32 (y.rg va l).toNat * sint 32 (y.rg vb l).toNat)

/-- FADD (R254). -/
def execFadd (t : TileId) (g : GroupId) (vd va vb : Nat) (s : State) : Host.Outcome State Fault Refusal :=
  s.onPart fun p => p.alu t g vd [va, vb] fun y l => fadd32 (y.rg va l) (y.rg vb l)

/-- FMUL (R254). -/
def execFmul (t : TileId) (g : GroupId) (vd va vb : Nat) (s : State) : Host.Outcome State Fault Refusal :=
  s.onPart fun p => p.alu t g vd [va, vb] fun y l => fmul32 (y.rg va l) (y.rg vb l)

/-- FMA (R254): one rounding. -/
def execFma (t : TileId) (g : GroupId) (vd va vb vc : Nat) (s : State) : Host.Outcome State Fault Refusal :=
  s.onPart fun p => p.alu t g vd [va, vb, vc] fun y l => fma32 (y.rg va l) (y.rg vb l) (y.rg vc l)

/-- Compare (R141; the words written are not in the spec, log 8). -/
def execCompare (t : TileId) (g : GroupId) (c : Cond) (vd va vb : Nat) (s : State) : Host.Outcome State Fault Refusal :=
  s.onPart fun p => p.alu t g vd [va, vb] fun y l => Config.compareWord (holds c (y.rg va l) (y.rg vb l))

/-- Select (R141): the first value where the predicate holds what Compare writes for true (log 8). -/
def execSelect (t : TileId) (g : GroupId) (vd vp va vb : Nat) (s : State) : Host.Outcome State Fault Refusal :=
  s.onPart fun p => p.alu t g vd [vp, va, vb] fun y l => if y.rg vp l = Config.compareWord true then y.rg va l else y.rg vb l

def logicOp (o : LogicOp) (a b : W32) : W32 :=
  match o with
  | .and => a &&& b
  | .or => a ||| b
  | .xor => a ^^^ b
  | .not => ~~~a

/-- Logic (R141; forms of log 8). -/
def execLogic (t : TileId) (g : GroupId) (op : LogicOp) (vd va vb : Nat) (s : State) : Host.Outcome State Fault Refusal :=
  s.onPart fun p => p.alu t g vd (if op = .not then [va] else [va, vb]) fun y l => logicOp op (y.rg va l) (y.rg vb l)

/-- CVT (R264–R266); an unlisted conversion or modifier is an undefined encoding. -/
def execCvt (t : TileId) (g : GroupId) (dst src : Fmt) (m : RMode) (sa : SatMod) (vd vs : Nat) (s : State) :
    Host.Outcome State Fault Refusal :=
  s.onPart fun p =>
    if cvtDefined dst src sa then p.alu t g vd [vs] fun y l => cvt dst src m sa (y.rg vs l)
    else p.issue t g [] [] true fun p => p.illegal t g

/-- SHFL (R141): lane i takes va of lane vb[i] mod 32; a lane that is not active gives a free value (log 8). -/
def execShfl (t : TileId) (g : GroupId) (vd va vb : Nat) (s : State) : Host.Outcome State Fault Refusal :=
  s.onPart fun p => p.aluFree t g vd [va, vb] fun z y l =>
    let k := (y.rg vb l).toNat % 32
    if y.act.getLsbD k then y.rg va k else z

/-- RCP (R255). -/
def execRcp (t : TileId) (g : GroupId) (vd vs : Nat) (s : State) : Host.Outcome State Fault Refusal :=
  s.onPart fun p => p.alu t g vd [vs] fun y l => rcp32 (y.rg vs l)
/-- RSQ (R255). -/
def execRsq (t : TileId) (g : GroupId) (vd vs : Nat) (s : State) : Host.Outcome State Fault Refusal :=
  s.onPart fun p => p.alu t g vd [vs] fun y l => rsq32 (y.rg vs l)
/-- SQRT (R255). -/
def execSqrt (t : TileId) (g : GroupId) (vd vs : Nat) (s : State) : Host.Outcome State Fault Refusal :=
  s.onPart fun p => p.alu t g vd [vs] fun y l => sqrt32 (y.rg vs l)
/-- EXP2 (R255). -/
def execExp2 (t : TileId) (g : GroupId) (vd vs : Nat) (s : State) : Host.Outcome State Fault Refusal :=
  s.onPart fun p => p.alu t g vd [vs] fun y l => exp2f (y.rg vs l)
/-- LOG2 (R255). -/
def execLog2 (t : TileId) (g : GroupId) (vd vs : Nat) (s : State) : Host.Outcome State Fault Refusal :=
  s.onPart fun p => p.alu t g vd [vs] fun y l => log2f (y.rg vs l)
/-- SIN (R255). -/
def execSin (t : TileId) (g : GroupId) (vd vs : Nat) (s : State) : Host.Outcome State Fault Refusal :=
  s.onPart fun p => p.alu t g vd [vs] fun y l => trig false Config.sin (y.rg vs l)
/-- COS (R255). -/
def execCos (t : TileId) (g : GroupId) (vd vs : Nat) (s : State) : Host.Outcome State Fault Refusal :=
  s.onPart fun p => p.alu t g vd [vs] fun y l => trig true Config.cos (y.rg vs l)

/-- BCVT.SB4.F32 (R268, R269). -/
def execBcvtSb4F32 (t : TileId) (g : GroupId) (m : RMode) (vd vs : Nat) (s : State) : Host.Outcome State Fault Refusal :=
  s.onPart fun p => p.alu t g vd [vs] fun y l =>
    (bcvtToSb4 m ((List.range 32).map fun i => if y.act.getLsbD i then dec32 (y.rg vs i) else .fin false 0 0)).getD l 0
/-- BCVT.F32.SB4 (R270). -/
def execBcvtF32Sb4 (t : TileId) (g : GroupId) (vd vs : Nat) (s : State) : Host.Outcome State Fault Refusal :=
  s.onPart fun p => p.alu t g vd [vs] fun y l => bcvtFromSb4 l (y.rg vs l)

/-! ## Branches (R144–R153) -/

/-- BRA (R144, R145, R148): divergent threads split; the taken ones become a pending path. -/
def execBra (t : TileId) (g : GroupId) (c : Cond) (va vb : Nat) (target reconv : Pc) (s : State) : Host.Outcome State Fault Refusal :=
  s.onPart fun p => p.issue t g [va, vb] [va, vb] true fun p =>
    let y := p.group t g
    let taken := maskOf fun l => y.act.getLsbD l && holds c (y.rg va l) (y.rg vb l)
    if taken = 0 then p.next8 t g
    else if taken = y.act then p.advance t g target (decide (target ≤ y.pc))
    else (p.modGroup t g fun y => y.divide reconv y.pc (y.act &&& ~~~taken) [(target, taken)]).next8 t g

/-- JMP (R148): backward when its target is not above it. -/
def execJmp (t : TileId) (g : GroupId) (target : Pc) (s : State) : Host.Outcome State Fault Refusal :=
  s.onPart fun p => p.issue t g [] [] true fun p => p.advance t g target (decide (target ≤ (p.group t g).pc))

/-- Target of an indirect jump in a lane: the 32 bits of the register under bits [47:32] of the program counter (log 10). -/
def Group.target (y : Group) (vs l : Nat) : Nat := y.pc.toNat / 2 ^ 32 * 2 ^ 32 + (y.rg vs l).toNat

/-- An indirect jump (R147): one path for each distinct target, lowest first. -/
def Part.indirect (p : Part) (t g vs : Nat) (reconv : Pc) : Part :=
  p.issue t g [vs] [vs] true fun p =>
    let y := p.group t g
    match sortAsc (distinct ((lanesOf y.act).map (y.target vs))) with
    | [] => p
    | [a] => p.advance t g (BitVec.ofNat 48 a) false
    | a :: rest =>
      let m (a : Nat) : LaneMask := maskOf fun l => y.act.getLsbD l && y.target vs l = a
      let p := p.modGroup t g fun y => y.divide reconv y.pc (m a) (rest.reverse.map fun b => (BitVec.ofNat 48 b, m b))
      p.advance t g (BitVec.ofNat 48 a) false

/-- JMP.IND (R147). -/
def execJmpInd (t : TileId) (g : GroupId) (vs : Nat) (reconv : Pc) (s : State) : Host.Outcome State Fault Refusal :=
  s.onPart fun p => p.indirect t g vs reconv
/-- RET (R147). -/
def execRet (t : TileId) (g : GroupId) (vs : Nat) (reconv : Pc) (s : State) : Host.Outcome State Fault Refusal :=
  s.onPart fun p => p.indirect t g vs reconv

/-- CALL (R147): never divergent; the return address goes to vd of every active lane. -/
def execCall (t : TileId) (g : GroupId) (vd : Nat) (target : Pc) (s : State) : Host.Outcome State Fault Refusal :=
  s.onPart fun p => p.issue t g [vd] [] true fun p =>
    (p.modGroup t g fun y => y.putLanes vd y.act fun _ => (y.pc + 8).truncate 32).advance t g target false

/-- S2R (R135, R136). -/
def execS2r (t : TileId) (g : GroupId) (vd code : Nat) (s : State) : Host.Outcome State Fault Refusal :=
  s.onPart fun p =>
    if 11 < code then p.issue t g [] [] true fun p => p.illegal t g
    else p.alu t g vd [] fun _ l => (p.special t g code l).getD 0

/-- Tokens that matrix operations of the group have not posted (R190). -/
def Group.outstanding (y : Group) : Bool := y.tokens.any fun c => c.2.code.isNone

/-- TRAP (R167). -/
def execTrap (t : TileId) (g : GroupId) (imm : BitVec 16) (s : State) : Host.Outcome State Fault Refusal :=
  s.onPart fun p => p.issue t g [] [] true fun p => p.fault t g { code := fTrap, lanes := (p.group t g).act, addr := imm.toNat }

/-! ## Barriers (R154–R160) -/

/-- GBAR (R154, R155): stores to scratchpad and L1 take effect at once in this model, so it only checks the masks. -/
def execGbar (t : TileId) (g : GroupId) (s : State) : Host.Outcome State Fault Refusal :=
  s.onPart fun p => p.issue t g [] [] true fun p => p.noTx t g fun p =>
    let y := p.group t g
    if y.act ≠ y.live then p.fault t g { code := fBarrierDiverged, lanes := y.act } else p.next8 t g

/-- A group arrives at its block's barrier; the timer starts at the first arrival (R156–R158, R180). -/
def Part.arriveBarrier (p : Part) (t g : Nat) (pc : Pc) : Part :=
  let cyc := max 1024 (p.rd TL_BARRIER_TIMEOUT_CYCLES t)
  p.modTile t fun x =>
    let y := x.group g
    let b := x.block y.block
    let b := { b with arrived := b.arrived ++ [g], firstPc := b.firstPc.or (some pc), limit := if b.firstPc.isNone then cyc else b.limit }
    ((x.setGroup g { y with wait := .barrier }).setBlock y.block b).barrierCheck y.block

/-- BBAR and BBAR.REL (R156, R157, R487). -/
def execBbar (t : TileId) (g : GroupId) (rel : Bool) (s : State) : Host.Outcome State Fault Refusal :=
  s.onPart fun p => p.issue t g [] [] true fun p => p.noTx t g fun p =>
    let y := p.group t g
    if y.act ≠ y.live then p.fault t g { code := fBarrierDiverged, lanes := y.act }
    else
      let p := p.next8 t g
      if rel then p.modGroup t g fun z => { z with wait := .release { op := .barrier, since := p.nextId, pc := y.pc, mask := y.act } }
      else p.arriveBarrier t g y.pc

/-- The barrier timer of block slot `b` expires before the barrier completes (R159): every group of the block ends. -/
def execBarrierTimeout (t : TileId) (b : Fin 8) (s : State) : Host.Outcome State Fault Refusal :=
  s.onPart fun p =>
    match ((p.tile t).block b).firstPc with
    | none => p
    | some pc =>
      let p := (p.capture t 0 { code := fBarrierTimeout } pc true b).endWork t fBarrierTimeout 0
      ((p.tile t).blockGroups b).foldl (fun p g => (p.txRelease t g 15).endGroup t g) p

/-- SID.SET (R496): from the lowest active lane. -/
def execSidSet (t : TileId) (g : GroupId) (vs : Nat) (s : State) : Host.Outcome State Fault Refusal :=
  s.onPart fun p => p.issue t g [vs] [vs] true fun p =>
    (p.modGroup t g fun y => { y with sid := (y.rg vs y.lowLane).truncate 12 }).next8 t g

end Sys2Proof.Machine
end

