-- ==== Sys2Proof/Machine/L1.lean ====
section
/-! DEFINITION. Machine/L1.lean: the tile's L1, its store buffer as lists, requests sent to the tuber network (07, 10). -/

namespace Sys2Proof.Machine

/-- A request is sent by a tile under the next number (R477). -/
def Part.send (p : Part) (q : Req) : Part := { p with net := p.net ++ [{ q with id := p.nextId }], nextId := p.nextId + 1 }

/-- L1_SIZE in force. -/
def Part.l1Size (p : Part) (t : Nat) : Nat := p.rd TL_ARRAY_L1_SIZE t
def Part.scratch (p : Part) (t : Nat) : Nat := scratchOf (p.l1Size t)

/-- Addresses that L1 holds (R342). -/
def Part.cacheable (p : Part) (t a : Nat) : Bool := p.l1Size t ≠ 0 && (inHbm a || p.inPin a)

/-- Set of an address in L1 (R343). -/
def l1Set (a : Nat) : Nat := a / 256 % 64
def l1Key (set w : Nat) : Nat := 16 * set + w
def Tile.l1Line (x : Tile) (set w : Nat) : Option L1Line := (x.l1.find? fun c => c.1 = l1Key set w).map (·.2)

/-- The way of L1 that holds the line of `a`. -/
def Tile.l1Find (x : Tile) (a : Nat) : Option Nat :=
  (List.range 16).find? fun w => match x.l1Line (l1Set a) w with
    | some l => l.line = lineOf a
    | none => false

/-- Sector of a line, 0–3. -/
def sectorIdx (a : Nat) : Nat := a / 64 % 4

def Tile.l1Valid (x : Tile) (a : Nat) : Bool :=
  match x.l1Find a with
  | some w => ((x.l1Line (l1Set a) w).map fun l => l.valid.getLsbD (sectorIdx a)).getD false
  | none => false
def Tile.l1Dirty (x : Tile) (a : Nat) : Bool :=
  match x.l1Find a with
  | some w => ((x.l1Line (l1Set a) w).map fun l => l.valid.getLsbD (sectorIdx a) && l.dirty.getLsbD (sectorIdx a)).getD false
  | none => false

/-- A line of L1 changed. -/
def Tile.l1Mod (x : Tile) (a : Nat) (f : L1Line → L1Line) : Tile :=
  { x with l1 := x.l1.map fun c => if c.2.line = lineOf a then (c.1, f c.2) else c }

def Tile.l1Bytes (x : Tile) (a n : Nat) : List Byte := (List.range n).map fun i => mget 0 x.l1Data (a + i)
def Tile.l1Put (x : Tile) (l : List (Nat × Byte)) : Tile := { x with l1Data := l.foldl (fun m c => mput 0 m c.1 c.2) x.l1Data }

/-- A whole sector of L1 is written back to its home slice, under identifier 16 (R346, R478). -/
def Part.sendSector (p : Part) (t a : Nat) : Part :=
  let s := sectorOf a
  p.send { id := 0, tile := t, group := 16, kind := .store (((p.tile t).l1Bytes s 64).mapIdx fun i b => (s + i, b)), sector := s }

/-- The dirty sectors of L1, in set order and in way order inside a set (R333). -/
def Tile.dirtySectors (x : Tile) : List Nat :=
  (List.range 1024).flatMap fun k => match (x.l1.find? fun c => c.1 = k) with
    | some (_, l) => ((List.range 4).filter fun i => l.dirty.getLsbD i).map fun i => l.line + 64 * i
    | none => []

/-- Every dirty sector is sent and stays valid and clean (R333, R483, R485); only evictions and the end and save sequences count (R363). -/
def Part.l1WriteBack (p : Part) (t : Nat) (count : Bool) : Part :=
  let ds := (p.tile t).dirtySectors
  let p := ds.foldl (fun p a => p.sendSector t a) p
  let p := p.modTile t fun x => { x with l1 := x.l1.map fun c => (c.1, { c.2 with dirty := 0 }) }
  if count then p.inc TL_L1_WB_WRITEBACKS ds.length t else p

/-- Every line of L1 is invalidated; fetches in flight are not kept (R331, R482, R483). -/
def Part.l1Invalidate (p : Part) (t : Nat) : Part :=
  let p := p.modTile t fun x => { x with l1 := [], l1Data := [] }
  { p with net := p.net.map fun q => if q.tile = t then { q with cached := false } else q }

/-- Fetches in flight of a sector leave nothing in L1: the tile has sent a newer write of it. -/
def Part.noKeep (p : Part) (t a : Nat) : Part :=
  { p with net := p.net.map fun q => if q.tile = t && q.sector = sectorOf a then { q with cached := false } else q }

/-- A sector leaves L1; a dirty one is written back first when `wb` (R349, R359). -/
def Part.l1Drop (p : Part) (t a : Nat) (wb : Bool) : Part :=
  let p := if wb && (p.tile t).l1Dirty a then p.sendSector t a else p
  (p.modTile t fun x => x.l1Mod a fun l =>
    { l with valid := l.valid &&& ~~~((1 : BitVec 4) <<< sectorIdx a), dirty := l.dirty &&& ~~~((1 : BitVec 4) <<< sectorIdx a) }).noKeep t a

/-- A line takes a way of L1 (R343): the lowest invalid one, else the first after the pointer, whose dirty sectors are written back. -/
def Part.l1Take (p : Part) (t a : Nat) : Part :=
  let n := 4 * p.l1Size t
  let x := p.tile t
  let set := l1Set a
  if (x.l1Find a).isSome || n = 0 then p
  else match (List.range n).find? fun w => (x.l1Line set w).isNone with
    | some w => p.setTile t { x with l1 := mins x.l1 (l1Key set w) { line := lineOf a } }
    | none =>
      let w := (mget (n - 1) x.l1Ptr set + 1) % n
      let old := (x.l1Line set w).getD { line := 0 }
      let ds := ((List.range 4).filter fun i => old.dirty.getLsbD i).map fun i => old.line + 64 * i
      let p := (ds.foldl (fun p a => p.sendSector t a) p).inc TL_L1_WB_WRITEBACKS ds.length t
      p.modTile t fun x => { x with l1 := mins x.l1 (l1Key set w) { line := lineOf a }, l1Ptr := mput (n - 1) x.l1Ptr set w }

/-- A fetched sector enters L1 if its line still has its way. -/
def Part.l1Fill (p : Part) (t a : Nat) (bs : List Byte) : Part :=
  let s := sectorOf a
  p.modTile t fun x =>
    if (x.l1Find a).isSome && !x.l1Valid a then
      (x.l1Put (bs.mapIdx fun i b => (s + i, b))).l1Mod a fun l => { l with valid := l.valid ||| ((1 : BitVec 4) <<< sectorIdx a) }
    else x

/-! ## Store buffer -/

/-- Entries of a sector, oldest first. -/
def Tile.sbOf (x : Tile) (a : Nat) (dev : Option Nat) : List SbEntry :=
  x.sb.filter fun e => e.dev = dev && (e.sector = sectorOf a || (e.kind = .discard && e.sector = lineOf a))

/-- Whether `k` more entries fit (32 in all). -/
def Tile.sbRoom (x : Tile) (k : Nat) : Bool := x.sb.length + k ≤ 32

/-- Entries allocated in order, under the next numbers. -/
def Part.sbAdd (p : Part) (t : Nat) (es : List SbEntry) : Part :=
  es.foldl (fun p e => { p.modTile t fun x => { x with sb := x.sb ++ [{ e with id := p.nextId, sid := (p.group t e.group).sid }] } with nextId := p.nextId + 1 }) p

/-- Requests of the tile that write memory outside the store buffer (L1 write-backs) with a number below `n` are all performed. -/
def Part.wbDone (p : Part) (t n : Nat) : Bool :=
  !(p.net.any fun q => q.tile = t && q.sb.isNone && q.id < n && (match q.kind with | .store _ => true | _ => false))

/-- Requests of a group whose reply has not reached it. -/
def Part.pendingOf (p : Part) (t g : Nat) : Bool :=
  p.net.any fun q => q.tile = t && q.group = g && q.state ≠ ReqState.held && q.sb.isNone

end Sys2Proof.Machine
end

