-- ==== Sys2Proof/Machine/Tx.lean ====
section
/-! DEFINITION. Machine/Tx.lean: hardware transactions at the tile and at the slice (R447–R461). -/

namespace Sys2Proof.Machine

/-- Open transactions of a tile (R459). -/
def Tile.openTx (x : Tile) : Nat := (x.groups.filter fun c => c.2.tx.isSome).length

/-- TXBEGIN (R448, R458, R459). -/
def execTxBegin (t : TileId) (g : GroupId) (vd : Nat) (target : Pc) (s : State) : Host.Outcome State Fault Refusal :=
  s.onPart fun p => p.issue t g [vd] [] ((p.tile t).openTx < 4) fun p =>
    match (p.group t g).tx with
    | some _ => p.txAbort t g 7 0 0
    | none =>
      (p.modGroup t g fun y =>
        { y with tx := some { target, mask := y.act, vd, split := y.path.split, firstId := y.nextId } }).next8 t g

/-- TXCOMMIT (R448, R454, R458): it waits for the acknowledgements of the claims; a transaction without any line commits at once. -/
def execTxCommit (t : TileId) (g : GroupId) (s : State) : Host.Outcome State Fault Refusal :=
  s.onPart fun p => p.issue t g [] [] true fun p =>
    let y := p.group t g
    match y.tx with
    | none => p.fault t g { code := fTxNone, lanes := y.act }
    | some x =>
      if y.act ≠ x.mask then p.txAbort t g 8 0 0
      else
        let p := p.inc TL_SECTORS_CYCLES (distinct (x.buf.map fun c => sectorOf c.1)).length t
        let p := p.next8 t g
        if x.lines.isEmpty then p.modGroup t g fun y => { y with tx := none }
        else p.modGroup t g fun y => { y with tx := some { x with commit := true }, wait := .txCommit }

/-- TXABORT (R448). -/
def execTxAbort (t : TileId) (g : GroupId) (imm : BitVec 8) (s : State) : Host.Outcome State Fault Refusal :=
  s.onPart fun p => p.issue t g [] [] true fun p =>
    let y := p.group t g
    match y.tx with
    | none => p.fault t g { code := fTxNone, lanes := y.act }
    | some _ => p.txAbort t g 14 imm.toNat 0

/-- The group is at an instruction boundary: it issues nothing and no instruction is under way but a wait. -/
def Group.atBoundary (y : Group) : Bool :=
  match y.wait with
  | .none => true
  | .txCommit => true
  | .counter _ _ _ => true
  | _ => false

/-- TX_ABORT_NOTICE (R455): an abort learned from a slice takes effect. -/
def execTxAbortNotice (t : TileId) (g : GroupId) (s : State) : Host.Outcome State Fault Refusal :=
  s.onPart fun p =>
    let y := p.group t g
    match y.tx.bind fun x => x.notice with
    | some (code, line) => if y.atBoundary then p.txAbort t g code 0 line else p
    | none => p

/-- TX_TIMEOUT (R460): the timer stopped when TXCOMMIT issued. -/
def execTxTimeout (t : TileId) (g : GroupId) (s : State) : Host.Outcome State Fault Refusal :=
  s.onPart fun p => match (p.group t g).tx with
    | none => p
    | some x => if x.commit then p else p.txAbort t g 9 0 0

/-- A slice refuses a claim (R451, R452, R458): the transaction's claims and ways are released, its tile learns of it. -/
def Part.claimAbort (p : Part) (s t g code line : Nat) : Part :=
  (((p.dropClaims t g).txNotice t g code line).inc LLC_TX_ABORTS 1 s).wr LLC_TX_LAST_ABORT code s

/-- The tile's transaction sees a claim acknowledged. -/
def Tx.ack (x : Tx) (line : Nat) (write : Bool) : Tx :=
  { x with lines := x.lines.map fun c => if c.1 = line && c.2.1 = write then (c.1, c.2.1, true) else c }

/-- Ways of a set held by transactions, by line (R451). -/
def Slice.heldLines (z : Slice) (set : Nat) : List Nat := distinct ((z.claims.filter fun c => c.set = set).map (·.line))

/-- A claim is accepted: recorded or upgraded, and acknowledged. -/
def Part.acceptClaim (p : Part) (s : Nat) (q : Req) (l : Nat) (write : Bool) : Part :=
  let p := p.modSlice s fun z =>
    if z.claims.any fun c => c.tile = q.tile && c.group = q.group && c.line = l then
      { z with claims := z.claims.map fun c => if c.tile = q.tile && c.group = q.group && c.line = l then { c with write := c.write || write } else c }
    else { z with claims := z.claims ++ [({ tile := q.tile, group := q.group, line := l, set := setOf l, write } : Claim)] }
  (p.modGroup q.tile q.group fun y => { y with tx := y.tx.map fun x => x.ack l write }).dropReq q.id

/-- TX_CLAIM (R449–R452, R458): the claim aborts the transaction, waits for the line, or is accepted. -/
def execTxClaim (id : Nat) (s : State) : Host.Outcome State Fault Refusal :=
  s.onPart fun p => match p.arrival id fun k => match k with | .claim _ => true | _ => false with
    | none => p
    | some q =>
      let write := match q.kind with | .claim w => w | _ => false
      let sl := p.served q.sector
      let l := lineOf q.sector
      let z := p.slice sl
      let x := p.phys l
      let no (code : Nat) : Part := (p.claimAbort sl q.tile q.group code l).dropReq id
      let mine (c : Claim) : Bool := c.tile = q.tile && c.group = q.group
      if ((p.group q.tile q.group).tx.map fun x => x.notice.isNone) ≠ some true then p.dropReq id
      else if !(z.claims.any mine) && 32 ≤ (distinct (z.claims.map fun c => 16 * c.tile + c.group)).length then no 13
      else if z.claims.any fun c => !mine c && c.line = l && (write || c.write) then no 1
      else if p.poison.any fun y => lineOf y = x then no 12
      else
        let held := z.heldLines (setOf l)
        let win := (p.winAt l).getD 0
        if !held.contains l && 4 ≤ held.length then no 3
        else if p.isDead x then p.acceptClaim sl q l write
        else match z.find l with
          | none => p.miss sl q
          | some w =>
            if z.entries.any fun e => e.line = l then p.miss sl q
            else if ((z.way (setOf l) w).valid &&& 15) ≠ 15 then p.miss sl q
            else if !held.contains l && !((List.range 16).any fun v => v ≠ w && p.eligible sl (setOf l) win v) then no 3
            else p.acceptClaim sl q l write

/-- The written bytes of a transaction by sector, in the order of first writing. -/
def Tx.sectors (x : Tx) : List (Nat × List (Nat × Byte)) :=
  (distinct (x.buf.map fun c => sectorOf c.1)).map fun a => (a, x.buf.filter fun c => sectorOf c.1 = a)

/-- TX_COMMIT_APPLY (R454): once every claim is acknowledged, all written sectors are performed in one step and the group falls through. -/
def execTxCommitApply (t : TileId) (g : GroupId) (s : State) : Host.Outcome State Fault Refusal :=
  s.onPart fun p => match (p.group t g).tx with
    | none => p
    | some x =>
      let sl := p.served ((x.lines.map (·.1)).headD 0)
      let leased := (p.slice sl).leases.any fun e => x.buf.any (fun c => lineOf c.1 = e.line) && !(e.tile = t && e.group = g)
      if !x.commit || x.notice.isSome || x.lines.isEmpty || !(x.lines.all fun c => c.2.2) || leased then p
      else
        let p := p.dropClaims t g
        let p := p.modGroup t g fun y => { y with tx := none, wait := .none }
        let p := x.sectors.foldl (fun p c => ((p.wayForDead sl (lineOf c.1)).getD p).performStore sl c.1 c.2) p
        p.inc LLC_TX_COMMITS 1 sl

/-- Bytes put into a transaction's buffer: a later write of a byte replaces an earlier one. -/
def bufPut (b : List (Nat × Byte)) (l : List (Nat × Byte)) : List (Nat × Byte) :=
  l.foldl (fun m c => m.filter (fun d => d.1 ≠ c.1) ++ [c]) b

/-- What stops an access of a transaction to a line (R450, R458): code and line. -/
def Part.txDeny (p : Part) (x : Tx) (lines : List Nat) : Option (Nat × Nat) :=
  let all := distinct (x.lines.map (·.1) ++ lines)
  let first := all.headD 0
  match lines.find? fun l => match p.winAt l with | some n => p.winType n ≠ 1 | none => true with
  | some l => some (5, l)
  | none => match lines.find? fun l => homeSlice l ≠ homeSlice first with
    | some l => some (4, l)
    | none => if 16 < all.length then some (2, all.getD 16 0) else none

/-- The claims an access needs: new lines, and upgrades of lines claimed for read (R449). -/
def Part.sendClaims (p : Part) (t g : Nat) (lines : List Nat) (write : Bool) : Part :=
  lines.foldl (fun p l =>
    match (p.group t g).tx with
    | none => p
    | some x =>
      let known := x.lines.find? fun c => c.1 = l
      let need := match known with
        | none => true
        | some c => write && !c.2.1
      if !need then p
      else
        let lines' := match known with
          | none => x.lines ++ [(l, write, false)]
          | some _ => x.lines.map fun c => if c.1 = l then (l, true, false) else c
        let p := p.modGroup t g fun y => { y with tx := some { x with lines := lines' } }
        (p.inc TL_SECTORS_CYCLES 1 t).send { id := 0, tile := t, group := g, kind := .claim write, sector := l, oid := g }) p

end Sys2Proof.Machine
end

