-- ==== Sys2Proof/Machine/Order.lean ====
section
/-! DEFINITION. Machine/Order.lean: acquires, releases, fences and DEVFENCE (R481–R488, R500–R507, R510). -/

namespace Sys2Proof.Machine

/-- The group waits in a release (R484); `z` is the group when the marked instruction issued. -/
def Part.startRelease (p : Part) (t g : Nat) (op : RelOp) (since : Nat) (z : Group) : Part :=
  p.modGroup t g fun y => { y with wait := .release { op, since, pc := z.pc, mask := z.act } }

/-- FENCE.ACQ (R482). -/
def execFenceAcq (t : TileId) (g : GroupId) (s : State) : Host.Outcome State Fault Refusal :=
  s.onPart fun p => p.issue t g [] [] true fun p => (p.next8 t g).modGroup t g fun y => { y with wait := .acquire }

/-- FENCE.REL (R484). -/
def execFenceRel (t : TileId) (g : GroupId) (vd : Nat) (s : State) : Host.Outcome State Fault Refusal :=
  s.onPart fun p => p.issue t g [vd] [] true fun p =>
    (p.next8 t g).startRelease t g (.fence vd false) p.nextId (p.group t g)

/-- FENCE.AR (R486). -/
def execFenceAr (t : TileId) (g : GroupId) (vd : Nat) (s : State) : Host.Outcome State Fault Refusal :=
  s.onPart fun p => p.issue t g [vd] [] true fun p =>
    (p.next8 t g).startRelease t g (.fence vd true) p.nextId (p.group t g)

/-- ACQUIRE_COMPLETE (R482, R483): the acquire has its data; dirty sectors are written back, L1 is invalidated, the group goes on. -/
def execAcquireComplete (t : TileId) (g : GroupId) (s : State) : Host.Outcome State Fault Refusal :=
  s.onPart fun p =>
    let back := p.net.any fun q => q.tile = t && q.group = g && q.acq
    if (p.group t g).wait ≠ .acquire || back then p
    else
      let p := (p.l1WriteBack t false).l1Invalidate t
      (p.modGroup t g fun y => { y with wait := .none }).inc TL_ORDER_ACQUIRES 1 t

/-- Remote writes of the tile that a release waits for. -/
def Tile.relUnacked (x : Tile) (r : RelWait) : List Unacked := x.unacked.filter fun u => u.id < r.since

/-- A release waits for acknowledgements of remote writes, those still in the store buffer among them. -/
def Tile.awaitsRemote (x : Tile) (r : RelWait) : Bool := !(x.relUnacked r).isEmpty || x.sb.any fun e => e.dev.isSome && e.id < r.since

/-- Everything a release waits for but L1 write-backs (R484). -/
def Part.relDrained (p : Part) (t g : Nat) (r : RelWait) : Bool :=
  !p.pendingOf t g && !((p.tile t).sb.any fun e => e.id < r.since) && ((p.tile t).relUnacked r).isEmpty

/-- A release completes: its operation is sent, or its fence completes with `v` (R484, R487, R504). -/
def Part.finishRelease (p : Part) (t g : Nat) (r : RelWait) (v : Nat) : Part :=
  let p := p.inc TL_ORDER_RELEASES 1 t
  let go (w : Wait) (p : Part) : Part := p.modGroup t g fun y => { y with wait := w }
  let after (acq : Bool) : Wait := if acq then .acquire else .none
  match r.op with
  | .fence vd acq => (p.modGroup t g fun y => y.putLanes vd r.mask fun _ => BitVec.ofNat 32 v) |> go (after acq)
  | .store ids => (p.modTile t fun x => { x with sb := x.sb.map fun e => if ids.contains e.id then { e with ready := true } else e }) |> go .none
  | .atomic ids acq =>
    let p : Part := { p with net := p.net.map fun q => if ids.contains q.id then { q with state := .sent } else q }
    let p := foldL (p.net.filter fun q => ids.contains q.id) p fun q p => p.sendRemote q
    go (after acq) p
  | .barrier => (go .none p).arriveBarrier t g r.pc

/-- In the step program a release that lost writes, or timed out, makes the device report FAULTED (R506). -/
def Part.stepFault (p : Part) (t : Nat) : Part :=
  if p.tileStep t then { p with step := { p.step with faulted := true } } else p

/-- RELEASE_SEND (R484, R485, R504): when everything earlier is done the tile writes back L1, and then sends the marked operation. -/
def execReleaseSend (t : TileId) (g : GroupId) (s : State) : Host.Outcome State Fault Refusal :=
  s.onPart fun p => match (p.group t g).wait with
    | .release r =>
      if !p.relDrained t g r then p
      else match r.wb with
        | none =>
          let p := p.l1WriteBack t false
          p.modGroup t g fun y => { y with wait := .release { r with wb := some p.nextId } }
        | some n =>
          if !p.wbDone t n then p
          else if r.lost then (p.finishRelease t g r 1).stepFault t
          else p.finishRelease t g r 0
    | _ => p

/-- FENCE_TIMEOUT (R501, R502): the release still waits for remote acknowledgements. A fence completes with 2, any other release faults at its
marked instruction and its operation is not performed. -/
def execFenceTimeout (t : TileId) (g : GroupId) (s : State) : Host.Outcome State Fault Refusal :=
  s.onPart fun p => match (p.group t g).wait with
    | .release r =>
      if !(p.tile t).awaitsRemote r then p
      else
        let p := p.set1 TL_FENCE_TIMEOUT t
        match r.op with
        | .fence _ _ => (p.finishRelease t g r 2).stepFault t
        | op =>
          let ids := match op with
            | .store l => l
            | .atomic l _ => l
            | _ => []
          let p := p.modTile t fun x => { x with sb := x.sb.filter fun e => !ids.contains e.id }
          let p := { p with net := p.net.filter fun q => !ids.contains q.id }
          let y := p.group t g
          let p := p.modGroup t g fun y => { y with wait := .none }
          (p.capture t g { code := fFenceTimeout, lanes := r.mask } r.pc false y.block).endWork t fFenceTimeout 0
    | _ => p

/-- DEVFENCE (R510): it writes back L1, waits until every earlier access of the group is performed or acknowledged, and then issues. -/
def execDevfence (t : TileId) (g : GroupId) (s : State) : Host.Outcome State Fault Refusal :=
  s.onPart fun p =>
    if !p.canIssue t g then p
    else if !(p.tile t).dirtySectors.isEmpty then p.l1WriteBack t false
    else
      let x := p.tile t
      let busy := p.pendingOf t g || x.sb.any (fun e => e.group = g) || x.unacked.any (fun u => u.group = g) || !p.wbDone t p.nextId
      p.issue t g [] [] (!busy) fun p => (p.next8 t g).inc TL_ORDER_DEVFENCES 1 t

end Sys2Proof.Machine
end

