-- ==== Sys2Proof/Machine/Access.lean ====
section
/-! DEFINITION. Machine/Access.lean: reads and writes of control space (R7, R8, R11, R12, R60–R63, R827). Fields that show state held elsewhere
are computed when they are read. -/

namespace Sys2Proof.Machine

/-- A block of control space (R60): first offset, instance size, instances, registers. -/
structure CsBlock where
  base : Nat
  size : Nat
  n    : Nat
  rows : List RegRow

/-- The block map, in the order of the bits of HUSK_TILE_CS (R60, R796). -/
def csBlocks : List CsBlock := [
  ⟨0x0, 0x10000, 1, rowsGlobal⟩, ⟨0x10000, 0x10000, 1, rowsTick⟩, ⟨0x20000, 0x10000, 1, rowsHusk⟩, ⟨0x30000, 0x10000, 1, rowsPwr⟩,
  ⟨0x40000, 0x10000, 1, rowsCmd⟩, ⟨0x50000, 0x10000, 1, rowsSched⟩, ⟨0x60000, 0x10000, 1, rowsUci⟩, ⟨0x100000, 0x10000, 18, rowsBlk⟩,
  ⟨0x400000, 0x10000, 24, rowsHbm⟩, ⟨0x800000, 0x1000, 256, rowsLlc⟩, ⟨0x1000000, 0x1000, 3264, rowsTl⟩, ⟨0x2000000, 0x1000, 192, rowsPd⟩,
  ⟨0x3000000, 0x1000, 48, rowsRgn⟩]

/-- A register found at an offset: its block's index, its row, instance and element. -/
structure CsHit where
  block : Nat
  row   : RegRow
  i     : Nat
  j     : Nat

/-- The element of a row at byte offset `o` of instance 0. -/
def RegRow.at? (r : RegRow) (o : Nat) : Option Nat :=
  if o < r.reg.base then none
  else
    let d := o - r.reg.base
    if d % r.reg.stride = 0 && d / r.reg.stride < r.reg.count then some (d / r.reg.stride) else none

/-- The first row that lists offset `o`. -/
def findRow : List RegRow → Nat → Option (RegRow × Nat)
  | [], _ => none
  | r :: rs, o => match r.at? o with
    | some j => some (r, j)
    | none => findRow rs o

def findBlock : List CsBlock → Nat → Nat → Option (Nat × CsBlock)
  | [], _, _ => none
  | b :: bs, k, o => if b.base ≤ o && o < b.base + b.n * b.size then some (k, b) else findBlock bs (k + 1) o

/-- The register at a control-space offset (R60, R61); none at an unassigned one. -/
def csFind (o : Nat) : Option CsHit :=
  match findBlock csBlocks 0 o with
  | none => none
  | some (k, b) =>
    let i := (o - b.base) / b.size
    (findRow b.rows (o / 8 * 8 - i * b.size)).map fun (r, j) => { block := k, row := r, i, j }

/-- Aligned 32-bit and 64-bit accesses are the only ones (R7). -/
def csAligned (o width : Nat) : Bool := (width = 4 || width = 8) && o % width = 0

/-- Bits of a register whose fields have an access type. -/
def RegRow.bits (r : RegRow) (a : Acc) : W64 :=
  r.flds.foldl (fun m f => if f.2.2 = a then setB m f.1 f.2.1 (2 ^ f.2.1 - 1) else m) 0

/-- Bits of an access of `width` bytes at offset `o`. -/
def halfMask (o width : Nat) : W64 :=
  if width = 8 then 0xFFFFFFFFFFFFFFFF else if o % 8 = 0 then 0xFFFFFFFF else 0xFFFFFFFF00000000

/-! ## Live fields -/

def Tile.live (x : Tile) : List Group := (x.groups.map fun c => c.2).filter fun y => y.live ≠ 0
def Tile.usedBlocks (x : Tile) : List Block := (x.blocks.map fun c => c.2).filter (·.used)
def Tile.dirtyCount (x : Tile) : Nat := x.l1.foldl (fun n c => n + ((List.range 4).filter fun i => c.2.dirty.getLsbD i).length) 0

/-- TL_STATUS (R177). -/
def Part.liveTlStatus (p : Part) (t : Nat) : W64 :=
  let x := p.tile t
  let pod := p.rd PD_STATUS_STATE (podOf t)
  let state := if x.inReset then 5 else if x.gated then 6 else match x.work with
    | .idle => if pod = 2 then 3 else if pod = 3 then 4 else 0
    | .step => 1
    | .kernel _ => if pod = 2 then 3 else if pod = 3 then 4 else 2
  let local4k := x.usedBlocks.foldl (fun n b => n + b.size / 4096) 0
  setB (setB (setB (setB (setB (setB 0 0 5 x.live.length) 8 4 x.usedBlocks.length) 16 7
    (x.live.foldl (fun n y => n + granulesOf y.nReg) 0)) 24 8 local4k) 32 3 state) 36 6 x.sb.length

/-- Sequence code of TL_ARRAY.SEQ (R362). -/
def seqCode : TileSeq → Nat
  | .none => 0
  | .start => 1
  | .ending => 2
  | .save => 3

/-- TL_MESH_STATUS.STATE of a router state (R324). -/
def routerCode : RouterState → Nat
  | .idle => 0
  | .running => 1
  | .gate => 2
  | .ended => 3
  | .stopped => 4
  | .silent => 5

/-- TL_MESH_STATUS.STATE (R324): a router whose slot 0 is END reads as ended from step start. -/
def Router.code (x : Router) : Nat :=
  if x.state = .running && x.cur.isNone && x.slot = 0 && getB (x.bank.getD 0 3) 0 2 = 3 then 3 else routerCode x.state

/-- The eight rows of a region's row band as ROW0–ROW7 (R326). -/
def bandRows (w : W64) (f : Nat → Nat) : W64 := (List.range 8).foldl (fun w k => setB w (5 * k) 5 (f k)) w

/-- The column that waits for a row (R326). -/
def Part.bypassNext (p : Part) (d row : Nat) : Option Nat :=
  (p.repair.pending.filterMap fun x => match x with
    | .bypass e w o _ _ => if e = d && w = row then some o else none
    | _ => none).getLast?

/-- RGN_BYPASS and RGN_BYPASS_NEXT of a region (R326). -/
def Part.bypassMap (p : Part) (r : Nat) : W64 := bandRows 0 fun k => p.bypassAt (r / 4) (8 * (r % 4 / 2) + k)
def Part.bypassMapNext (p : Part) (r : Nat) : W64 :=
  let row (k : Nat) : Nat := 8 * (r % 4 / 2) + k
  bandRows (setB 0 40 8 ((List.range 8).foldl (fun m k => if (p.bypassNext (r / 4) (row k)).isSome then m + 2 ^ k else m) 0))
    fun k => (p.bypassNext (r / 4) (row k)).getD (p.bypassAt (r / 4) (row k))

/-- GLOBAL_REPAIR_STATUS (R768). -/
def Part.repairStatus (p : Part) (v : W64) : W64 :=
  let q := p.repair
  let byp := q.pending.any fun x => match x with | .bypass _ _ _ _ _ => true | _ => false
  let sl := q.pending.any fun x => match x with | .slice _ _ _ => true | _ => false
  setB (setB (setB (setB (setB v 0 1 (b2n byp)) 1 1 (b2n sl)) 2 1 (b2n !q.joins.isEmpty)) 16 8 (maskPods q.retiredPods).length) 24 8
    (min 255 q.sliceMap.length)

/-- A clean works in slice `s` (R375, R376, R402, R408, R421). -/
def CleanKind.concerns (k : CleanKind) (s : Nat) : Bool := match k with
  | .powerDown t _ => s / 64 = t
  | .powerUp _ _ => false
  | .remap i => s = i
  | _ => true

/-- A register with its live fields, `v` being its stored value. -/
def Part.live (p : Part) (h : CsHit) (v : W64) : W64 :=
  let r := h.row.reg
  let t := h.i
  if r = reg_TL_STATUS then p.liveTlStatus t
  else if r = reg_TL_ARRAY then setB (setB v 16 13 (p.tile t).dirtyCount) 32 2 (seqCode (p.tile t).seq)
  else if r = reg_TL_FENCE then 
    let x := p.tile t
    setB v 32 12 (min (x.unacked.length + (x.sb.filter fun e => e.dev.isSome).length) 4095)
  else if r = reg_TL_MESH_STATUS then
    let x := p.router t
    setB (setB (setB (setB (setB (setB 0 0 12 x.slot) 12 3 x.code) 16 16 (min p.step.gatesLeft 65535)) 32 16
      (min (p.tile t).ready 65535)) 48 1 (b2n x.which)) 49 1 (b2n x.staging.isSome)
  else if r = reg_TL_MMA_STATUS then
    let x := p.tile t
    setB (setB (setB (setB 0 0 3 x.ops.length) 3 1 (b2n (x.ops.any fun o => o.stage = .running))) 8 2
      (min 2 (x.ops.filter fun o => o.stage = .translated).length)) 16 6 (8 * x.ptc.length)
  else if r = reg_RGN_BYPASS then p.bypassMap h.i
  else if r = reg_RGN_BYPASS_NEXT then p.bypassMapNext h.i
  else if r = reg_GLOBAL_REPAIR_STATUS then p.repairStatus v
  else if r = reg_TICK_TIME then setB (setB 0 0 16 (p.now % 10 * 65536 / 10)) 16 48 (p.now / 10)
  else if r = reg_LLC_STATUS then
    let v := setB v 32 7 (p.slice h.i).entries.length
    if getB v 40 2 = 0 && p.cleans.any (fun c => c.kind.concerns h.i) then setB v 40 2 1 else v
  else if r = reg_UCI_MBX_PENDING then v &&& BitVec.ofNat 64 (2 ^ (p.rd UCI_STATUS_NUM_VF + 1) - 2)
  else if r = reg_SCHED_STATUS then
    let n (k : List Nat) : Nat := ((List.range 192).filter fun q => k.contains (p.rd PD_STATUS_STATE q) && p.rd PD_STATUS_OWNER_KIND q = 1).length
    setB (setB v 0 8 (n [1])) 8 8 ((List.range 192).filter fun q => p.rd PD_STATUS_STATE q = 2 || p.rd PD_STATUS_STATE q = 3).length
  else if r = reg_LLC_CAP then
    let ws := (p.slice h.i).ways.map (·.2)
    let pairs := (ws.filter fun w => w.kind = .pair).length
    let lines := (ws.filter fun w => w.kind = .line).length
    setB (setB (setB 0 0 15 lines) 16 15 pairs) 32 14 ((lines + 2 * pairs) / 4)
  else if r = reg_LLC_TX then
    setB v 48 6 (distinct ((p.slice h.i).claims.map fun c => 16 * c.tile + c.group)).length
  else if r = reg_LLC_HELD then
    let z := p.slice h.i
    setB (setB (setB 0 0 12 z.pins.length) 16 9 z.rsvs.length) 32 10 (distinct (z.claims.map (·.line))).length
  else v

/-! ## Reads -/

/-- Key instance of a hit: TL registers follow the logical tile (R62); none for a spare tile not in service (R63). -/
def Part.csInst (p : Part) (h : CsHit) : Option Nat := if h.block = 10 then p.logicalOf h.i else some h.i

/-- Instances that show the registers of another: any slice shows the window table, any stack the HBM settings and golden sources (R419, R561,
R562). -/
def aliasInst (r : Reg) (i : Nat) : Nat :=
  if [reg_LLC_WIN_BASE, reg_LLC_WIN_SIZE, reg_LLC_WIN_ATTR, reg_LLC_WIN_GRANT, reg_HBM_CFG, reg_HBM_MIGRATE, reg_HBM_GOLD_SRC0,
      reg_HBM_GOLD_SRC1, reg_HBM_GOLD_STATE].contains r then 0 else i

/-- The RC fields of a row that an access covers whole, cleared (R827). -/
def clearRc (r : RegRow) (m v : W64) : W64 :=
  r.flds.foldl (fun v f => if f.2.2 = Acc.rc && getB m f.1 f.2.1 = 2 ^ f.2.1 - 1 then setB v f.1 f.2.1 0 else v) v

/-- A read of `width` bytes at control-space offset `o`: the value and the part after it; none where it is rejected with ADDR_RANGE. -/
def Part.csRead (p : Part) (o width : Nat) : Option (W64 × Part) :=
  if !csAligned o width then none
  else match csFind o with
    | none => none
    | some h => match p.csInst h with
      | none => some (0, p)
      | some i =>
        let r := h.row.reg
        let k := aliasInst r i
        let v := p.reg r k h.j
        let m := halfMask o width
        let full := (p.live { h with i := i } v) &&& ~~~(h.row.bits .wo)
        let out := if o % 8 = 0 then full &&& m else full >>> 32
        let v' := clearRc h.row m v
        some (out, if v' = v then p else p.setReg r v' k h.j)

/-! ## Writes -/

/-- The value a plain write leaves: RW bits take the written bits, W1C bits written 1 clear, in the written half alone (R8, R12). -/
def RegRow.written (r : RegRow) (old v m : W64) : W64 :=
  let rw := r.bits .rw &&& m
  ((old &&& ~~~rw) ||| (v &&& rw)) &&& ~~~(v &&& r.bits .w1c &&& m)

end Sys2Proof.Machine
end

