-- ==== Sys2Proof/Machine/RegWrite.lean ====
section
/-! DEFINITION. Machine/RegWrite.lean: writes of control space, and what a write does besides storing its bits. -/

namespace Sys2Proof.Machine

/-! ## TICK_CTL (R118, R119) -/

/-- A TICK_CTL value whose fields are in range (R119, R120). -/
def tickCtlOk (v : W64) : Bool :=
  let period := getB v 0 17
  let guard := getB v 20 11
  250 ≤ period && period ≤ 100000 && 20 ≤ guard && guard ≤ 2000 && 2 * guard ≤ period && 1 ≤ getB v 36 2 && 1 ≤ getB v 40 4

/-- The written bits of TICK_CTL. -/
def tickCtlBits : W64 := 0x1F317FF1FFFF

/-- A write of TICK_CTL: held for the next ANNOUNCE on the tick master, ignored elsewhere. `old` is what it merges with: a write already held, else
the value in force. -/
def Part.writeTickCtl (p : Part) (v : W64) : Part :=
  if p.rd TICK_STATUS_ROLE = 0 then p
  else if !tickCtlOk v then p.tickEvents fun p => p.set1 TICK_EVENTS_CTL_REJECT
  else { p with tick := { p.tick with ctlHeld := some v } }.set1 TICK_STATUS_CTL_PENDING

/-! ## Administration queue (R671, R672) -/

def clamp (lo hi n : Nat) : Nat := min (max n lo) hi

/-- CMD_ADMQ_CFG.ENABLE turns on or off: PF queue pair 0 is set up from the registers, or disabled. -/
def Part.admqEnabled (p : Part) (was : Bool) : Part :=
  let on := p.rd CMD_ADMQ_CFG_ENABLE = 1
  if on && !was then
    let p := p.setSq 0 0 { state := 1, base := (p.reg reg_CMD_ADMQ_SQ).toNat, log2 := clamp 4 12 (p.rd CMD_ADMQ_CFG_SQ_LOG2),
                           slotLog2 := clamp 7 12 (p.rd CMD_ADMQ_CFG_SLOT_LOG2), vector := p.rd CMD_ADMQ_CFG_VECTOR, cq := 0 }
    p.setCq 0 0 { exists_ := true, base := (p.reg reg_CMD_ADMQ_CQ).toNat, log2 := clamp 4 12 (p.rd CMD_ADMQ_CFG_CQ_LOG2),
                  vector := p.rd CMD_ADMQ_CFG_VECTOR, events := p.rd CMD_ADMQ_CFG_EVENTS = 1 }
  else if !on && was then
    let p := (p.setSq 0 0 { p.sq 0 0 with state := 0 }).setCq 0 0 {}
    { p with host := { p.host with accepted := p.host.accepted.filter fun r => !(r.fn = 0 && r.q = 0) } }
  else p

/-! ## Mailboxes (R626, R627) -/

/-- Keys of `host.pages`: a word of a function's doorbell page, of a VF's mailbox area in the UCI block, of the PF's MSI-X table. -/
def pageKey (fn o : Nat) : Nat := 0x10000 * fn + o
def mailKey (vf o : Nat) : Nat := 0x400000 + 0x100 * (vf - 1) + o
def msixKey (o : Nat) : Nat := 0x500000 + o

def Part.page (p : Part) (k : Nat) : W64 := mget 0 p.host.pages k
def Part.setPage (p : Part) (k : Nat) (v : W64) : Part := { p with host := { p.host with pages := mput 0 p.host.pages k v } }

/-- The mailbox vector of a function is raised: the vector of its event queue, which the spec does not name (log 21). -/
def Part.mailVector (p : Part) (fn : Nat) : Part := match p.eventCq fn with
  | some q => p.msix fn (p.cq fn q).vector
  | none => p

def Part.vfEnabled (p : Part) (n : Nat) : Bool := 1 ≤ n && n ≤ p.rd UCI_STATUS_NUM_VF

/-- A VF's SEND: its message is posted to the manager. -/
def Part.vfSend (p : Part) (fn : Nat) : Part :=
  if !p.vfEnabled fn then p
  else
    let p := foldN 16 p fun i p => p.setPage (mailKey fn (8 * i)) (p.page (pageKey fn (0x800 + 8 * i)))
    let p := p.setReg reg_UCI_MBX_PENDING (p.reg reg_UCI_MBX_PENDING ||| ((1 : W64) <<< fn))
    p.mailVector 0

/-- The manager's SEND: its message goes to every enabled VF of the mask. -/
def Part.managerSend (p : Part) (mask : W64) : Part :=
  foldN 64 p fun n p =>
    if mask.getLsbD n && p.vfEnabled n then
      let p := foldN 16 p fun i p => p.setPage (pageKey n (0x880 + 8 * i)) (p.page (mailKey n (0x80 + 8 * i)))
      (p.setPage (pageKey n 0x900) (p.page (pageKey n 0x900) ||| 2)).mailVector n
    else p

/-! ## Ceilings (R707) -/

/-- A field above its ceiling acts as the ceiling. -/
def Part.ceil (p : Part) (f : Fld) (limit : Nat) (i j : Nat := 0) : Part :=
  if limit < p.rd f i j then (p.wr f limit i j).set1 PWR_EVENTS_CEILING else p

def Part.ceilings (p : Part) (r : Reg) (j : Nat) : Part :=
  if r = reg_PWR_CFG then p.ceil PWR_CFG_LIMIT_W (p.rd HUSK_CEIL_LIMIT_W)
  else if r = reg_PWR_THERM then (p.ceil PWR_THERM_T_HOT (p.rd HUSK_CEIL_T_HOT_C)).ceil PWR_THERM_T_CRIT (p.rd HUSK_CEIL_T_CRIT_C)
  else if r = reg_PWR_RAIL0 then p.ceil PWR_RAIL0_LIMIT_DA (p.rd HUSK_RAIL_CEIL_LIMIT_DA 0 j) 0 j
  else p

/-- A written mode waits for the next boundary, or inside a guard window for the one after (R731). -/
def Part.modeWritten (p : Part) (was : Bool) : Part :=
  let now := p.rd PWR_CFG_MODE = 1
  if now = was then p else { p with power := { p.power with modeNext := some (p.tickNo + (if p.tick.phase = .guard then 2 else 1), now) } }

/-! ## Traffic generators (R555, R563) -/

/-- HBM_STATUS.STATE of a stack under test (R560). -/
def stTest := 5

/-- START runs the generator of a channel whose stack is in TEST; elsewhere it is refused. -/
def Part.tgStart (p : Part) (st ch : Nat) : Part :=
  if p.rd HBM_STATUS_STATE st = stTest then p.wr HBM_TG_CTL_BUSY 1 st ch else p.set1 HBM_EVENTS_TG_REFUSED st

/-! ## Writes -/

/-- What follows the store of a written register: `old` is its value before, `w` the written bits in place, `m` the half written. -/
def Part.afterWrite (p : Part) (r : Reg) (i j : Nat) (old w : W64) : Part :=
  if r = reg_TL_EVENTS then (if getB w 0 1 = 1 then p.wr TL_FAULT_PC_MORE 0 i else p)
  else if r = reg_CMD_ADMQ_CFG then p.admqEnabled (getB old 32 1 = 1)
  else if r = reg_BLK_CFG then p.portEnabled i (getB old 0 1 = 1)
  else if r = reg_UCI_MBX_SEND then p.managerSend w
  else if r = reg_HBM_TG_CTL then (if getB w 0 1 = 1 then p.tgStart i j else p)
  else if r = reg_PWR_CFG then (p.modeWritten (getB old 0 1 = 1)).ceilings r j
  else p.ceilings r j

/-- A register keeps its written value only in part: CMD_ADMQ rings while ENABLE is 1 (R671), BLK_CFG.MODE while the port is enabled (R609). -/
def Part.accepted (p : Part) (r : Reg) (old new : W64) : W64 :=
  let busy := p.rd CMD_ADMQ_CFG_ENABLE = 1
  if (r = reg_CMD_ADMQ_SQ || r = reg_CMD_ADMQ_CQ) && busy then old
  else if r = reg_CMD_ADMQ_CFG && busy then setB old 32 1 (getB new 32 1)
  else if r = reg_BLK_CFG && getB old 0 1 = 1 then setB new 1 2 (getB old 1 2)
  else new

/-- A write of `width` bytes at control-space offset `o`; none where it is rejected with ADDR_RANGE (R7, R60). A 32-bit write carries its value
in the low half of `v`. -/
def Part.csWrite (p : Part) (o width : Nat) (v : W64) : Option Part :=
  if !csAligned o width then none
  else match csFind o with
    | none => none
    | some h => match p.csInst h with
      | none => some p
      | some i =>
        let r := h.row.reg
        let k := aliasInst r i
        let m := halfMask o width
        let w := if width = 8 then v else if o % 8 = 0 then v &&& 0xFFFFFFFF else v <<< 32
        if r = reg_TICK_CTL then
          let base := p.tick.ctlHeld.getD (p.reg r)
          some (p.writeTickCtl ((base &&& ~~~(tickCtlBits &&& m)) ||| (w &&& tickCtlBits &&& m)))
        else
          let old := p.reg r k h.j
          some ((p.setReg r (p.accepted r old (h.row.written old w m)) k h.j).afterWrite r k h.j old w)

end Sys2Proof.Machine
end

