-- ==== Sys2Proof/Machine/SimtMem.lean ====
section
/-! DEFINITION. Machine/SimtMem.lean: loads, stores, atomics, reservations, DISCARD, PREFETCH, accumulator and control-space accesses of a thread
group (03, 07, 09, 10). -/

namespace Sys2Proof.Machine

/-! ## Checks of lane addresses (R837) -/

/-- Kinds of access, for the checks that differ between them. -/
inductive Use where
  | load | store | atomic | discard
deriving DecidableEq, Repr

/-- Check of a scratchpad range of `n` bytes at offset `o` (R134, R337): the fault code, 0 where it passes. -/
def Part.scratchCheck (p : Part) (t g o n : Nat) : Nat :=
  match (p.tile t).work with
  | .kernel _ =>
    let b := (p.tile t).block (p.group t g).block
    if b.base ≤ o && o + n ≤ b.base + b.size then 0 else fLocalBound
  | _ => if o + n ≤ p.scratch t then 0 else fAddrRange

/-- Check of a control-space access by a tile (R7, R60, R508, R790). -/
def Part.csCheck (p : Part) (t o n : Nat) (write : Bool) : Nat :=
  if !csAligned o n then fAddrRange
  else match csFind o with
    | none => fAddrRange
    | some h =>
      let bounds := if write then p.rd HUSK_TILE_CS_WRITE else p.rd HUSK_TILE_CS_READ
      if p.tileFn t ≠ 0 || !bounds.testBit h.block then fAccessDenied else 0

/-- Fault code of one lane's access of `n` bytes, 0 where it passes (R837; R14, R16, R50, R52, R53, R54, R340, R369, R389, R426, R508). -/
def Part.laneCheck (p : Part) (t g : Nat) (u : Use) (n : Nat) (w : W64) : Nat :=
  let align := if u = .discard then 256 else n
  if w.toNat % align ≠ 0 then fMisaligned
  else match p.route w with
    | .reject => fAddrRange
    | .away _ _ => if u = .discard then fAccessDenied else 0
    | .here a =>
      if inArr a then
        if u = .atomic then fAtomTarget
        else if u = .discard then fAccessDenied
        else if (a - arrBase) / 0x80000 ≠ t then fAccessDenied
        else if p.scratch t ≤ (a - arrBase) % 0x80000 then fAddrRange
        else p.scratchCheck t g ((a - arrBase) % 0x80000) n
      else if inCs a then
        if u = .atomic then fAtomTarget
        else if u = .discard then fAccessDenied
        else p.csCheck t (a - csBase) n (u = .store)
      else match u with
        | .discard =>
          if !p.granted (p.tileFn t) a 256 false then fAccessDenied
          else match p.winAt a with
            | some w => if p.winType w = 2 || (p.winType w = 0 && !p.winShared w) then 0 else fDiscardDenied
            | none => fAccessDenied
        | _ => if p.granted (p.tileFn t) a n (u ≠ .load) then 0 else fAccessDenied

/-- The code taken when lanes fail different checks, its lanes and lowest address (R837). -/
def laneFault (l : List (Nat × Nat × W64)) : Option FaultInfo :=
  ([fMisaligned, fAtomTarget, fAddrRange, fLocalBound, fAccessDenied, fDiscardDenied].find? fun c => l.any fun x => x.2.1 = c).map fun c =>
    let same := l.filter fun x => x.2.1 = c
    { code := c, lanes := maskOf fun i => same.any fun x => x.1 = i, addr := minOf (same.map fun x => x.2.2.toNat) }

/-- Active lanes with their addresses in a register pair. -/
def Group.addrs (y : Group) (va : Nat) : List (Nat × W64) := (lanesOf y.act).map fun l => (l, y.pair va l)

/-- Checks of every active lane. -/
def Part.checkLanes (p : Part) (t g : Nat) (u : Use) (n va : Nat) : Option FaultInfo :=
  laneFault (((p.group t g).addrs va).map fun (l, w) => (l, p.laneCheck t g u n w, w))

/-- Where a lane's access goes. -/
inductive Place where
  | scratch (o : Nat)
  | control (o : Nat)
  | mem (dev : Option Nat) (a : Nat)
deriving DecidableEq, Repr

def Part.place (p : Part) (w : W64) : Place :=
  match p.route w with
  | .reject => .mem none 0
  | .away d a => .mem (some d) a
  | .here a => if inArr a then .scratch ((a - arrBase) % 0x80000) else if inCs a then .control (a - csBase) else .mem none a

/-- Distinct sectors of lane accesses, by device and sector, in the order of the lanes. -/
def sectorsOf (l : List (Nat × Place)) : List (Option Nat × Nat) :=
  l.foldl (fun m c => match c.2 with
    | .mem d a => if m.contains (d, sectorOf a) then m else m ++ [(d, sectorOf a)]
    | _ => m) []

/-- Sectors of scratchpad that lanes touch, for the cycle count (R142). -/
def scratchSectors (l : List (Nat × Place)) : Nat :=
  (distinct (l.filterMap fun c => match c.2 with | .scratch o => some (o / 64) | _ => none)).length

/-! ## Scratchpad -/

def Tile.arrBytes (x : Tile) (o n : Nat) : List Byte := (List.range n).map fun i => mget 0 x.arr (o + i)
def Tile.arrPut (x : Tile) (l : List (Nat × Byte)) : Tile := { x with arr := l.foldl (fun m c => mput 0 m c.1 c.2) x.arr }

/-- The array offset of LD.S and ST.S (R337). -/
def Group.offset (y : Group) (va l : Nat) : Nat := (y.rg va l).toNat % 0x80000

/-- Checks of LD.S and ST.S; their fault address is in the tile's aperture (R179). -/
def Part.checkScratch (p : Part) (t g n va : Nat) : Option FaultInfo :=
  let y := p.group t g
  laneFault ((lanesOf y.act).map fun l =>
    let o := y.offset va l
    (l, if o % n ≠ 0 then fMisaligned else p.scratchCheck t g o n, BitVec.ofNat 64 (arrBase + 0x80000 * t + o)))

/-- LD.S (R337, R838). -/
def execLdS (t : TileId) (g : GroupId) (size : Nat) (sx : Bool) (vd va : Nat) (s : State) : Host.Outcome State Fault Refusal :=
  s.onPart fun p =>
    if !sizeOk size sx then p.issue t g [] [] true fun p => p.illegal t g
    else p.issue t g (va :: dataRegs vd size) [va] true fun p => match p.checkScratch t g size va with
      | some f => p.fault t g f
      | none =>
        let x := p.tile t
        let y := p.group t g
        let z := (lanesOf y.act).foldl (fun z l => z.loadLane vd size sx l (x.arrBytes (y.offset va l) size)) y
        let k := (distinct ((lanesOf y.act).map fun l => y.offset va l / 64)).length
        ((p.setGroup t g z).inc TL_SECTORS_CYCLES k t).next8 t g

/-- ST.S (R337, R838): it writes the array at once (R168). -/
def execStS (t : TileId) (g : GroupId) (size : Nat) (va vs : Nat) (s : State) : Host.Outcome State Fault Refusal :=
  s.onPart fun p =>
    if !sizeOk size false then p.issue t g [] [] true fun p => p.illegal t g
    else p.issue t g (va :: dataRegs vs size) (va :: dataRegs vs size) true fun p => match p.checkScratch t g size va with
      | some f => p.fault t g f
      | none =>
        let y := p.group t g
        let w := mergeLanes (fun o => p.freeByte (arrPlace o)) ((lanesOf y.act).map fun l => (y.offset va l, y.storeBytes vs size l))
        let k := (distinct ((lanesOf y.act).map fun l => y.offset va l / 64)).length
        (((p.modTile t fun x => x.arrPut w).inc TL_SECTORS_CYCLES k t).next8 t g).nextFree

/-! ## Control space (R508, R509) -/

/-- Lanes read control space in lane order. -/
def Part.csLoadLanes (p : Part) (t g vd n : Nat) (l : List (Nat × Nat)) : Part :=
  l.foldl (fun p c => match p.csRead c.2 n with
    | some (v, p) => p.modGroup t g fun y => y.loadLane vd n false c.1 (leBytes n v.toNat)
    | none => p) p

/-- Lanes write control space in lane order. -/
def Part.csStoreLanes (p : Part) (n : Nat) (l : List (Nat × List Byte)) : Part :=
  l.foldl (fun p c => (p.csWrite c.1 n (BitVec.ofNat 64 (leNat c.2))).getD p) p

/-! ## Loads -/

/-- Lanes of one sector of a load. -/
def lanesIn (l : List (Nat × Place)) (d : Option Nat) (sec : Nat) : List (Nat × Nat) :=
  l.filterMap fun c => match c.2 with
    | .mem e a => if e = d && sectorOf a = sec then some (c.1, a) else none
    | _ => none

/-- The youngest store-buffer entry of a sector gives a load its bytes (R347). -/
def Tile.forward (x : Tile) (d : Option Nat) (sec : Nat) (ls : List (Nat × Nat)) (n : Nat) : Option SbEntry :=
  match (x.sbOf sec d).getLast? with
  | none => none
  | some e =>
    if e.kind = .store && !e.marked && ls.all fun c => (List.range n).all fun i => e.bytes.any fun b => b.1 = c.2 % 64 + i then some e else none

/-- A load waits while the store buffer holds an entry of its sector that cannot be forwarded (R347, R480). -/
def Part.loadBlocked (p : Part) (t : Nat) (l : List (Nat × Place)) (n : Nat) : Bool :=
  (sectorsOf l).any fun (d, sec) =>
    !((p.tile t).sbOf sec d).isEmpty && ((p.tile t).forward d sec (lanesIn l d sec) n).isNone

/-- Remote reads carry the next end-to-end number of their target (R589). -/
def Part.nextSeq (p : Part) (dev : Nat) : Nat := mget 0 p.domain.nextSeq dev
def Part.bumpSeq (p : Part) (dev : Nat) : Part :=
  { p with domain := { p.domain with nextSeq := mput 0 p.domain.nextSeq dev ((p.nextSeq dev + 1) % 2 ^ 32) } }

def Part.bumpFor (p : Part) (d : Option Nat) : Part := match d with
  | some dev => p.bumpSeq dev
  | none => p

/-- One sector of a load: forwarded, an L1 hit, or fetched (R344, R347, R478). -/
def Part.loadSector (p : Part) (t g vd n : Nat) (sx acq : Bool) (d : Option Nat) (sec : Nat) (ls : List (Nat × Nat)) : Part :=
  let x := p.tile t
  let put (p : Part) (byte : Nat → Byte) : Part :=
    p.modGroup t g fun y => ls.foldl (fun y c => y.loadLane vd n sx c.1 ((List.range n).map fun i => byte (c.2 % 64 + i))) y
  match x.forward d sec ls n with
  | some e => put (p.inc TL_L1_WB_FORWARDS 1 t) fun o => ((e.bytes.find? fun b => b.1 = o).map (·.2)).getD 0
  | none =>
    if d.isNone && p.cacheable t sec && x.l1Valid sec then put (p.inc TL_L1_HITS_HITS 1 t) fun o => mget 0 x.l1Data (sec + o)
    else
      let cached := d.isNone && p.cacheable t sec
      let p := if cached then (p.l1Take t sec).inc TL_L1_HITS_MISSES 1 t else p
      let id := p.nextId
      let lanes : List LaneAcc := ls.map fun c => { lane := c.1, addr := c.2, reg := vd }
      let seq := (d.map p.nextSeq).getD 0
      let q : Req := { id, tile := t, group := g, kind := .load n sx cached, sector := sec, dev := d, lanes, oid := if cached then 16 else g,
                       cached, acq, seq, sentAt := p.now }
      let p := ((p.send q).bumpFor d).sendRemote q
      p.modGroup t g fun y => ls.foldl (fun y c => y.pendLane vd n c.1 id) y

/-- A load of memory inside a transaction (R449): bytes the transaction has written come from its buffer, the rest from the slice. -/
def Part.txLoadSector (p : Part) (t g vd n : Nat) (sx : Bool) (x : Tx) (sec : Nat) (ls : List (Nat × Nat)) : Part :=
  let beyond := x.buf.filter fun c => sectorOf c.1 = sec
  let id := p.nextId
  let lanes : List LaneAcc := ls.map fun c => { lane := c.1, addr := c.2, reg := vd }
  let p := p.send { id := 0, tile := t, group := g, kind := .load n sx false, sector := sec, lanes, oid := g, beyond, sentAt := p.now }
  p.modGroup t g fun y => ls.foldl (fun y c => y.pendLane vd n c.1 id) y

/-- Lanes of a memory access with their places. -/
def Part.places (p : Part) (t g va : Nat) : List (Nat × Place) := ((p.group t g).addrs va).map fun (l, w) => (l, p.place w)

def scratchLanes (l : List (Nat × Place)) : List (Nat × Nat) :=
  l.filterMap fun c => match c.2 with | .scratch o => some (c.1, o) | _ => none
def controlLanes (l : List (Nat × Place)) : List (Nat × Nat) :=
  l.filterMap fun c => match c.2 with | .control o => some (c.1, o) | _ => none
def hasRemote (l : List (Nat × Place)) : Bool := l.any fun c => match c.2 with | .mem (some _) _ => true | _ => false
def memLines (l : List (Nat × Place)) : List Nat :=
  distinct (l.filterMap fun c => match c.2 with | .mem _ a => some (lineOf a) | _ => none)

/-- Load/store cycles of an access (R142). -/
def Part.addCycles (p : Part) (t : Nat) (l : List (Nat × Place)) : Part :=
  p.inc TL_SECTORS_CYCLES ((sectorsOf l).length + scratchSectors l + (distinct ((controlLanes l).map fun c => c.2 / 64)).length) t

/-- LD (R142, R143, R340, R344, R347, R449, R482, R508, R838). -/
def execLd (t : TileId) (g : GroupId) (size : Nat) (sx : Bool) (m : Marks) (vd va : Nat) (s : State) : Host.Outcome State Fault Refusal :=
  s.onPart fun p =>
    if !sizeOk size sx || m.rel || m.fin then p.issue t g [] [] true fun p => p.illegal t g
    else
      let ls := p.places t g va
      p.issue t g ([va, va + 1] ++ dataRegs vd size) [va, va + 1] (!p.loadBlocked t ls size) fun p =>
        match p.checkLanes t g .load size va with
        | some f => p.fault t g f
        | none =>
          let tx := (p.group t g).tx
          match tx.bind (fun x => if (controlLanes ls).isEmpty then
              (if hasRemote ls then some (5, (memLines ls).headD 0) else p.txDeny x (memLines ls)) else some (6, 0)) with
          | some (code, line) => p.txAbort t g code 0 (if code = 6 then 0 else line)
          | none =>
            let x := p.tile t
            let p := p.addCycles t ls
            let p := p.modGroup t g fun y =>
              (scratchLanes ls).foldl (fun y c => y.loadLane vd size sx c.1 (x.arrBytes c.2 size)) y
            let p := p.csLoadLanes t g vd size (controlLanes ls)
            let p := if tx.isSome then p.sendClaims t g (memLines ls) false else p
            let p := (sectorsOf ls).foldl (fun p c => match tx with
              | some x => p.txLoadSector t g vd size sx x c.2 (lanesIn ls c.1 c.2)
              | none => p.loadSector t g vd size sx m.acq c.1 c.2 (lanesIn ls c.1 c.2)) p
            let p := p.next8 t g
            if m.acq && tx.isNone then p.modGroup t g fun y => { y with wait := .acquire } else p

/-! ## Stores -/

/-- Store-buffer entries of a group store, one for each sector (R168). -/
def Part.storeEntries (p : Part) (t g n vs : Nat) (l : List (Nat × Place)) (rel fin : Bool) : List SbEntry :=
  let y := p.group t g
  (sectorsOf l).map fun (d, sec) =>
    { id := 0, group := g, sector := sec, dev := d, marked := rel, ready := !rel, fin := fin && d.isSome,
      bytes := mergeLanes (fun o => p.freeByte (memPlace d (sec + o))) ((lanesIn l d sec).map fun c => (c.2 % 64, y.storeBytes vs n c.1)) }

/-- Entries are allocated; a marked operation waits for its release (R484). -/
def Part.storeAll (p : Part) (t g : Nat) (es : List SbEntry) (rel : Bool) : Part :=
  let y := p.group t g
  let since := p.nextId
  let ids := (List.range es.length).map (since + ·)
  let p := (p.sbAdd t es).next8 t g
  if rel then p.startRelease t g (.store ids) since y else p

/-- The local lanes of a .FIN act as .REL (R498). -/
def finActsRel (m : Marks) (l : List (Nat × Place)) : Bool := m.rel || (m.fin && l.any fun c => match c.2 with | .mem (some _) _ => false | _ => true)

/-- ST (R142, R143, R168, R340, R449, R484, R498, R508, R838). -/
def execSt (t : TileId) (g : GroupId) (size : Nat) (m : Marks) (va vs : Nat) (s : State) : Host.Outcome State Fault Refusal :=
  s.onPart fun p =>
    if !sizeOk size false || m.acq then p.issue t g [] [] true fun p => p.illegal t g
    else
      let ls := p.places t g va
      let regs := [va, va + 1] ++ dataRegs vs size
      let inTx := (p.group t g).tx.isSome
      let blocked := if inTx then (sectorsOf ls).any fun (d, sec) => !((p.tile t).sbOf sec d).isEmpty else !(p.tile t).sbRoom (sectorsOf ls).length
      p.issue t g regs regs (!blocked) fun p =>
        match p.checkLanes t g .store size va with
        | some f => p.fault t g f
        | none =>
          let y := p.group t g
          match y.tx.bind (fun x => if (controlLanes ls).isEmpty then
              (if hasRemote ls then some (5, (memLines ls).headD 0) else p.txDeny x (memLines ls)) else some (6, 0)) with
          | some (code, line) => p.txAbort t g code 0 (if code = 6 then 0 else line)
          | none =>
            let p := p.addCycles t ls
            let w := mergeLanes (fun o => p.freeByte (arrPlace o)) ((scratchLanes ls).map fun c => (c.2, y.storeBytes vs size c.1))
            let p := p.modTile t fun x => x.arrPut w
            let p := p.csStoreLanes size ((controlLanes ls).map fun c => (c.2, y.storeBytes vs size c.1))
            let es := p.storeEntries t g size vs ls (finActsRel m ls) m.fin
            match y.tx with
            | none => (p.storeAll t g es (finActsRel m ls)).nextFree
            | some _ =>
              let p := p.sendClaims t g (memLines ls) true
              let bytes := es.flatMap fun e => e.bytes.map fun b => (e.sector + b.1, b.2)
              ((p.modGroup t g fun y => { y with tx := y.tx.map fun x => { x with buf := bufPut x.buf bytes } }).next8 t g).nextFree

/-- CONTROL_SPACE_ACCESS (R508, R509): a tile's load or store of control space, as LD or ST of 4 or 8 bytes. -/
def execControlSpaceAccess (t : TileId) (g : GroupId) (write wide : Bool) (vd va : Nat) (s : State) : Host.Outcome State Fault Refusal :=
  s.onPart fun p =>
    let n := if wide then 8 else 4
    let ls := p.places t g va
    let regs := [va, va + 1] ++ dataRegs vd n
    let all := ls.all fun c => match c.2 with | .control _ => true | _ => false
    if !all then p
    else p.issue t g regs (if write then regs else [va, va + 1]) true fun p =>
      match p.checkLanes t g (if write then .store else .load) n va with
      | some f => p.fault t g f
      | none => p.noTx t g fun p =>
        let y := p.group t g
        let p := p.addCycles t ls
        let p := if write then p.csStoreLanes n ((controlLanes ls).map fun c => (c.2, y.storeBytes vd n c.1))
          else p.csLoadLanes t g vd n (controlLanes ls)
        p.next8 t g

/-! ## Atomics -/

/-- Lane parts of one sector of an atomic: operand and compare values of the lanes, in lane order. -/
def Group.atomLanes (y : Group) (wide : Bool) (vd vs vc : Nat) (ls : List (Nat × Nat)) : List LaneAcc :=
  ls.map fun c => { lane := c.1, addr := c.2, reg := vd
                    val := if wide then y.pair vs c.1 else (y.rg vs c.1).setWidth 64
                    cmp := if wide then y.pair vc c.1 else (y.rg vc c.1).setWidth 64 }

/-- Before an atomic, a reservation or a reduction leaves the tile, the sectors it touches leave L1 (R349). -/
def Part.flushSectors (p : Part) (t : Nat) (l : List (Option Nat × Nat)) : Part :=
  l.foldl (fun p c => if c.1.isNone then p.l1Drop t c.2 true else p) p

/-- Registers an element of `n` bytes takes. -/
def elemRegs (r n : Nat) : List Nat := if n = 8 then [r, r + 1] else [r]

/-- Requests of ATOM, LDRSV and STCND: one for each sector, under the group's identifier (R429, R478). `held` marks a release. -/
def Part.sendAtomics (p : Part) (t g vd n : Nat) (kind : Nat → ReqKind) (acq held : Bool) (lanes : List (Nat × Nat) → List LaneAcc)
    (l : List (Nat × Place)) : Part :=
  ((sectorsOf l).mapIdx fun i c => (i, c)).foldl (fun p c =>
    let ls := lanesIn l c.2.1 c.2.2
    let id := p.nextId
    let seq := (c.2.1.map p.nextSeq).getD 0
    let q : Req := { id, tile := t, group := g, kind := kind c.1, sector := c.2.2, dev := c.2.1, lanes := lanes ls, oid := g, acq,
                     state := if held then .held else .sent, seq, sentAt := p.now }
    let p := ((p.send q).bumpFor c.2.1).sendRemote q
    p.modGroup t g fun y => ls.foldl (fun y d => y.pendLane vd n d.1 id) y) p

/-- What an atomic waits for before it issues: entries of its sectors in the store buffer (R480). -/
def Part.sbFree (p : Part) (t : Nat) (l : List (Nat × Place)) : Bool := (sectorsOf l).all fun (d, sec) => ((p.tile t).sbOf sec d).isEmpty

/-- The common part of ATOM, ATOM.CAS, LDRSV and STCND. -/
def Part.atomic (p : Part) (t g : Nat) (ok : Bool) (named srcs : List Nat) (n va vd dn : Nat) (m : Marks)
    (kind : List (Nat × Place) → Nat → ReqKind) (lanes : Group → List (Nat × Nat) → List LaneAcc) : Part :=
  if !ok then p.issue t g [] [] true fun p => p.illegal t g
  else
    let ls := p.places t g va
    p.issue t g ([va, va + 1] ++ named ++ dataRegs vd dn) ([va, va + 1] ++ srcs) (p.sbFree t ls) fun p =>
      match p.checkLanes t g .atomic n va with
      | some f => p.fault t g f
      | none => p.noTx t g fun p =>
        let y := p.group t g
        let since := p.nextId
        let p := (p.addCycles t ls).flushSectors t (sectorsOf ls)
        let k := p.nextId
        let p := p.sendAtomics t g vd dn (kind ls) m.acq m.rel (lanes y) ls
        let ids := (List.range (p.nextId - k)).map (k + ·)
        let p := p.next8 t g
        if m.rel then p.startRelease t g (.atomic ids m.acq) since y
        else if m.acq then p.modGroup t g fun y => { y with wait := .acquire }
        else p

/-- ATOM (R426–R430, R481). -/
def execAtom (t : TileId) (g : GroupId) (op : AtomOp) (ty : AtomTy) (m : Marks) (vd va vs : Nat) (s : State) : Host.Outcome State Fault Refusal :=
  s.onPart fun p =>
    let n := atomSize ty
    p.atomic t g (atomDefined op ty && !m.fin) (elemRegs vs n) (elemRegs vs n) n va vd n m
      (fun _ _ => .atomic op ty false true) fun y l => y.atomLanes (n = 8) vd vs vs l

/-- ATOM.CAS (R427, R428): `cmp` of a lane is the new value, `val` the value compared. -/
def execAtomCas (t : TileId) (g : GroupId) (ty : AtomTy) (m : Marks) (vd va vs vc : Nat) (s : State) : Host.Outcome State Fault Refusal :=
  s.onPart fun p =>
    let n := atomSize ty
    let r := elemRegs vs n ++ elemRegs vc n
    p.atomic t g ((ty = .b32 || ty = .b64) && !m.fin) r r n va vd n m
      (fun _ _ => .atomic .swap ty true true) fun y l => y.atomLanes (n = 8) vd vs vc l

/-- The sector of the lowest active lane's line holds the reservation (R438). -/
def reserves (l : List (Nat × Place)) (i : Nat) : Bool :=
  match l.head? with
  | some (_, .mem d a) => (sectorsOf l).findIdx? (fun c => c = (d, sectorOf a)) = some i
  | _ => false

/-- LDRSV (R438): the group's reservation names the line of the lowest active lane. -/
def execLdrsv (t : TileId) (g : GroupId) (wide : Bool) (m : Marks) (vd va : Nat) (s : State) : Host.Outcome State Fault Refusal :=
  s.onPart fun p =>
    let n := if wide then 8 else 4
    p.atomic t g (!m.rel && !m.fin) [] [] n va vd n m
      (fun ls i => .ldrsv wide (reserves ls i)) fun y l => y.atomLanes wide vd va va l

/-- STCND (R439). -/
def execStcnd (t : TileId) (g : GroupId) (wide : Bool) (m : Marks) (vd va vs : Nat) (s : State) : Host.Outcome State Fault Refusal :=
  s.onPart fun p =>
    let n := if wide then 8 else 4
    p.atomic t g (!m.acq && !m.fin) (elemRegs vs n) (elemRegs vs n) n va vd 4 m
      (fun _ _ => .stcnd wide) fun y l => y.atomLanes wide vd vs vs l

/-- RED (R427, R430): one store-buffer entry for each sector. -/
def execRed (t : TileId) (g : GroupId) (op : AtomOp) (ty : AtomTy) (m : Marks) (va vs : Nat) (s : State) : Host.Outcome State Fault Refusal :=
  s.onPart fun p =>
    let n := atomSize ty
    if !atomDefined op ty || m.acq then p.issue t g [] [] true fun p => p.illegal t g
    else
      let ls := p.places t g va
      let regs := [va, va + 1] ++ elemRegs vs n
      p.issue t g regs regs ((p.tile t).sbRoom (sectorsOf ls).length) fun p =>
        match p.checkLanes t g .atomic n va with
        | some f => p.fault t g f
        | none => p.noTx t g fun p =>
          let y := p.group t g
          let rel := finActsRel m ls
          let es : List SbEntry := (sectorsOf ls).map fun (d, sec) =>
            { id := 0, group := g, sector := sec, dev := d, marked := rel, ready := !rel, fin := m.fin && d.isSome
              kind := .red op ty (y.atomLanes (n = 8) vs vs vs (lanesIn ls d sec)) }
          (p.addCycles t ls).storeAll t g es rel

/-- Element parts of RED.SEC for one lane (R428). -/
def redSecLanes (y : Group) (ty : AtomTy) (vs a l : Nat) : List LaneAcc :=
  let v := y.rg vs l
  if ty = .bf16 then
    [{ lane := l, addr := a + 4 * l, reg := vs, val := BitVec.ofNat 64 (v.toNat % 65536) },
     { lane := l, addr := a + 4 * l + 2, reg := vs, val := BitVec.ofNat 64 (v.toNat / 65536) }]
  else [{ lane := l, addr := a + 4 * l, reg := vs, val := v.setWidth 64 }]

/-- RED.SEC (R427–R430): 128 B at the address of the lowest active lane, as two sector requests. -/
def execRedSec (t : TileId) (g : GroupId) (op : AtomOp) (ty : AtomTy) (m : Marks) (va vs : Nat) (s : State) : Host.Outcome State Fault Refusal :=
  s.onPart fun p =>
    if op ≠ .add || !(ty = .f32 || ty = .i32 || ty = .bf16) || m.acq then p.issue t g [] [] true fun p => p.illegal t g
    else p.issue t g [va, va + 1, vs] [va, va + 1, vs] ((p.tile t).sbRoom 2) fun p =>
      let y := p.group t g
      let w := y.pair va y.lowLane
      let code := if w.toNat % 128 ≠ 0 then fMisaligned else p.laneCheck t g .atomic 128 w
      if code ≠ 0 then p.fault t g { code, lanes := maskOf fun i => i = y.lowLane, addr := w.toNat }
      else p.noTx t g fun p =>
        let y := p.group t g
        match p.place w with
        | .mem d a =>
          let ls : List (Nat × Place) := [(y.lowLane, .mem d a)]
          let rel := finActsRel m ls
          let part (k : Nat) : SbEntry :=
            { id := 0, group := g, sector := a + 64 * k, dev := d, marked := rel, ready := !rel, fin := m.fin && d.isSome
              kind := .red .add ty (((lanesOf y.act).filter fun l => l / 16 = k).flatMap fun l => redSecLanes y ty vs a l) }
          (p.inc TL_SECTORS_CYCLES 2 t).storeAll t g [part 0, part 1] rel
        | _ => p

/-- DISCARD (R358, R389): one entry for each distinct line. -/
def execDiscard (t : TileId) (g : GroupId) (va : Nat) (s : State) : Host.Outcome State Fault Refusal :=
  s.onPart fun p =>
    let lines := memLines (p.places t g va)
    p.issue t g [va, va + 1] [va, va + 1] ((p.tile t).sbRoom lines.length) fun p =>
      match p.checkLanes t g .discard 256 va with
      | some f => p.fault t g f
      | none => p.noTx t g fun p =>
        let es : List SbEntry := lines.map fun l => { id := 0, group := g, sector := l, kind := .discard }
        ((p.inc TL_SECTORS_CYCLES lines.length t).inc TL_L1_WB_DISCARDS lines.length t).storeAll t g es false

/-- PREFETCH (R411): a hint for each line in a granted window; it never faults. -/
def execPrefetch (t : TileId) (g : GroupId) (va : Nat) (s : State) : Host.Outcome State Fault Refusal :=
  s.onPart fun p => p.issue t g [va, va + 1] [va, va + 1] true fun p => p.noTx t g fun p =>
    let here := (p.places t g va).filterMap fun c => match c.2 with | .mem none a => some (lineOf a) | _ => none
    let lines := distinct (here.filter fun a => p.hasHome a && p.granted (p.tileFn t) a 1 false)
    let p := lines.foldl (fun p l => p.send { id := 0, tile := t, group := 16, kind := .hint, sector := l, oid := 17 }) p
    (p.inc TL_SECTORS_CYCLES (distinct here).length t).next8 t g

/-! ## Accumulator memory (R351, R352) -/

/-- An operation in flight writes accumulator memory: LD.ACC and ST.ACC of its elements wait (R206). -/
def Part.accFault (p : Part) (t g va : Nat) : Option FaultInfo :=
  let y := p.group t g
  let bad := (lanesOf y.act).filter fun l => 0x4000 ≤ (y.rg va l).toNat
  if bad.isEmpty then none
  else some { code := fAddrRange, lanes := maskOf fun i => bad.contains i, addr := minOf (bad.map fun l => (y.rg va l).toNat) }

end Sys2Proof.Machine
end

