-- ==== Sys2Proof/Machine/Mesh.lean ====
section
/-! DEFINITION. Machine/Mesh.lean: the static mesh: stream descriptors, gates, counters, routers and their schedules, reduction in the routers
(06); the counter instructions of 07 and CONSUME of 12. -/

namespace Sys2Proof.Machine

/-! ## Streams and counters -/

/-- Key of a stream: injection 0–7, ejection 8–15 (R295). -/
def streamKey (ej : Bool) (n : Nat) : Nat := (if ej then 8 else 0) + n
def Tile.stream (x : Tile) (k : Nat) : Stream := mget {} x.streams k
def Tile.setStream (x : Tile) (k : Nat) (v : Stream) : Tile := { x with streams := mput {} x.streams k v }

/-- Length of the unbroken run from line 0 (R92). -/
def runFrom (l : List Nat) : Nat → Nat → Nat
  | 0, k => k
  | n + 1, k => if l.contains k then runFrom l n (k + 1) else k

/-- Counter of a weight channel (R92). -/
def WeightCh.counter (w : WeightCh) : Nat := runFrom w.written w.written.length 0
def Tile.weight (x : Tile) (ch : Nat) : WeightCh := mget {} x.weights ch

/-- The counter that CTR.RD and CTR.WAIT name (R354). -/
def Tile.counter (x : Tile) (d : CtrDir) (n : Nat) : Nat := match d with
  | .inj => (x.stream (streamKey false (n % 8))).counter
  | .ej => (x.stream (streamKey true (n % 8))).counter
  | .weight => (x.weight n).counter

/-- The largest value CTR.WAIT may wait for (R355): COUNT of the active descriptor, LINES of the channel's, 0 where none is active. -/
def Tile.counterMax (x : Tile) (d : CtrDir) (n : Nat) : Nat := match d with
  | .inj => (x.stream (streamKey false (n % 8))).count
  | .ej => (x.stream (streamKey true (n % 8))).count
  | .weight => ((x.weight n).active.map (·.lines)).getD 0

/-- Groups whose counter has reached its target go on, and those that wait on a counter `fresh` names, whose descriptor is new (R355). -/
def Tile.wakeCounters (x : Tile) (fresh : CtrDir → Nat → Bool) : Tile :=
  { x with groups := x.groups.map fun c => (c.1, match c.2.wait with
      | .counter d n v => if v ≤ x.counter d n || fresh d n then { c.2 with wait := .none } else c.2
      | _ => c.2) }

/-- Instructions that exist only in the step program (R296, R354, R541). -/
def Part.stepOnly (p : Part) (t g : Nat) (act : Part → Part) : Part := if p.tileStep t then p.noTx t g act else p.illegal t g

/-- A stream operand that is defined: 0–7, 0–1 for a weight channel (R354). -/
def ctrDefined (d : CtrDir) (n : Nat) : Bool := match d with
  | .weight => n < 2
  | _ => n < 8

/-- CTR.RD (R354). -/
def execCtrRd (t : TileId) (g : GroupId) (vd : Nat) (dir : CtrDir) (stream : Nat) (s : State) : Host.Outcome State Fault Refusal :=
  s.onPart fun p =>
    if !ctrDefined dir stream then p.issue t g [] [] true fun p => p.illegal t g
    else p.issue t g [vd] [] true fun p => p.stepOnly t g fun p =>
      (p.modGroup t g fun y => y.putLanes vd y.act fun _ => BitVec.ofNat 32 ((p.tile t).counter dir stream)).next8 t g

/-- CTR.WAIT (R354, R355). -/
def execCtrWait (t : TileId) (g : GroupId) (dir : CtrDir) (stream vs : Nat) (s : State) : Host.Outcome State Fault Refusal :=
  s.onPart fun p =>
    if !ctrDefined dir stream then p.issue t g [] [] true fun p => p.illegal t g
    else p.issue t g [vs] [vs] true fun p => p.stepOnly t g fun p =>
      let x := p.tile t
      let y := p.group t g
      let v := (y.rg vs y.lowLane).toNat
      if x.counterMax dir stream < v then p.fault t g { code := fCtrRange, lanes := y.act }
      else
        let p := p.next8 t g
        if v ≤ x.counter dir stream then p else p.modGroup t g fun y => { y with wait := .counter dir stream v }

/-- CONSUME (R541). -/
def execConsume (t : TileId) (g : GroupId) (vs vc : Nat) (s : State) : Host.Outcome State Fault Refusal :=
  s.onPart fun p => p.issue t g [vs, vc] [vs, vc] true fun p => p.stepOnly t g fun p =>
    let y := p.group t g
    let range := ((y.rg vs y.lowLane).toNat, (y.rg vc y.lowLane).toNat)
    (p.modTile t fun x => { x with consumer := some range }).next8 t g

/-! ## Mesh faults (R320, R321, R323, R830) -/

def mStreamBad := 0x20
def mStreamOverrun := 0x21
def mEmpty := 0x22
def mOrphan := 0x23
def mMeshPoison := 0x24
def mBridgeUe := 0x25
def mSchedEcc := 0x26

/-- A mesh fault of the router of logical tile `t`: counted, captured while VALID is 0, and the step has faulted; the tile runs on. -/
def Part.meshFault (p : Part) (t code port stream : Nat) : Part :=
  let r := p.router t
  let p := p.inc TL_COUNTS_FAULTS 1 t
  let p := if p.rd TL_MESH_FAULT_VALID t = 1 then p else
    let p := p.wr TL_MESH_FAULT_CODE code t
    let p := p.wr TL_MESH_FAULT_SLOT r.slot t
    let p := p.wr TL_MESH_FAULT_PORT port t
    let p := p.wr TL_MESH_FAULT_STREAM stream t
    let p := p.wr TL_MESH_FAULT_CYCLE r.cycle t
    p.set1 TL_MESH_FAULT_VALID t
  { p with step := { p.step with faulted := true } }.log 2 1 1 t code 0 (p.reg reg_TL_MESH_FAULT t).toNat { origin := 0, unit := t, fn := 0, step := true }

/-! ## MESH.STREAM and MESH.READY -/

/-- A stream descriptor of R295: DIR, STREAM and its fields; none when the checks of MESH_STREAM_BAD fail (R321). -/
def decStream (bs : List Byte) (scratch : Nat) : Option (Nat × Stream) :=
  let w := leAt bs 0 8
  let v := leAt bs 8 8
  let base := fld w 0 19
  let count := fld w 32 16
  let stride := fld v 0 19
  let ej := w.testBit 19
  if fld w 23 9 ≠ 0 || fld w 48 16 ≠ 0 || fld v 19 45 ≠ 0 || base % 64 ≠ 0 || stride % 64 ≠ 0 || (ej && stride = 0) ||
      (count ≠ 0 && scratch < base + (count - 1) * stride + 64) then none
  else some (streamKey ej (fld w 20 3), { base, stride, count })

/-- The group's next MESH.READY or MESH.STREAM waits while a MESH.READY is outstanding (R299). -/
def Part.readyFree (p : Part) (t : Nat) : Bool := !(p.tile t).readyOut

/-- MESH.STREAM (R295, R296, R298, R299, R321). -/
def execMeshStream (t : TileId) (g : GroupId) (vs : Nat) (s : State) : Host.Outcome State Fault Refusal :=
  s.onPart fun p => p.issue t g [vs] [vs] (p.readyFree t) fun p => p.stepOnly t g fun p =>
    let y := p.group t g
    let o := y.offset vs y.lowLane
    let one := maskOf fun i => i = y.lowLane
    let a := arrBase + 0x80000 * t.val + o
    if o % 16 ≠ 0 then p.fault t g { code := fMisaligned, lanes := one, addr := a }
    else if p.scratch t < o + 16 then p.fault t g { code := fAddrRange, lanes := one, addr := a }
    else
      let bs := (p.tile t).arrBytes o 16
      match decStream bs (p.scratch t) with
      | none => (p.meshFault t mStreamBad 4 (fld (leAt bs 0 8) 20 3)).next8 t g
      | some (k, d) => (p.modTile t fun x => { x with stagedStreams := mins x.stagedStreams k d }).next8 t g

/-- MESH.READY (R296, R299). -/
def execMeshReady (t : TileId) (g : GroupId) (s : State) : Host.Outcome State Fault Refusal :=
  s.onPart fun p => p.issue t g [] [] (p.readyFree t) fun p => p.stepOnly t g fun p =>
    (p.modTile t fun x => { x with ready := x.ready + 1, readyOut := true }).next8 t g

/-! ## Gates (R297, R298) -/

/-- A tile whose stream ended on a step-level fault, or that is in reset, sources and takes nothing (R314). -/
def Part.meshGone (p : Part) (t : Nat) : Bool := (p.tile t).inReset || ((p.tile t).faulted && p.tileStep t)

/-- A tile counts as ready for the next gate (R297, R314). -/
def Part.gateTile (p : Part) (t : Nat) : Bool := p.meshGone t || decide (p.step.gates < (p.tile t).ready)

def Part.stepPods (p : Part) : List Nat := (p.step.active.map fun i => maskPods i.pods).getD []

/-- Every router has reached END or is at a GATE slot. -/
def Part.routersAtGate (p : Part) : Bool :=
  (List.range 3072).all fun t => (p.router t).state = .gate || (p.router t).state = .ended

/-- A gate may open in a step whose streams have started (R284, R297). -/
def Part.gateReady (p : Part) : Bool :=
  p.step.running && p.step.started && !p.step.complete && !p.step.opening && p.routersAtGate && p.stepPods.all fun q => (podTiles q).all p.gateTile

/-- A tile when gate number `n` opens: its MESH.READY is met; the descriptors staged until now are those the gate makes active. -/
def Tile.gateOpened (x : Tile) (n : Nat) : Tile :=
  { x with readyOut := decide (n < x.ready), stagedStreams := []
           openStreams := x.stagedStreams.foldl (fun m e => mins m e.1 e.2) x.openStreams }

/-- GATE_OPEN (R297). -/
def execGateOpen (s : State) : Host.Outcome State Fault Refusal :=
  s.onPart fun p =>
    if !p.gateReady then p
    else
      let n := p.step.gates + 1
      { p with step := { p.step with gates := n, opening := true }, tiles := p.tiles.map fun (c : Nat × Tile) => (c.1, c.2.gateOpened n) }

/-- A tile's staged descriptors become active, index and counter 0; waits on those streams end (R298, R355). -/
def Tile.activate (x : Tile) : Tile :=
  let keys := x.openStreams.map (·.1)
  let x : Tile := { x with streams := x.openStreams.foldl (fun (m : SMap Stream) (c : Nat × Stream) => mput {} m c.1 c.2) x.streams, openStreams := [] }
  x.wakeCounters fun d n => match d with
    | .inj => keys.contains (streamKey false n)
    | .ej => keys.contains (streamKey true n)
    | .weight => false

/-- Flits that reach a router at GATE or END: no route reads them (R280, R321). -/
def Part.orphans (p : Part) (t : Nat) (l : List MeshFlit) : Part :=
  l.foldl (fun p f => p.meshFault t mOrphan f.port 0) { p with flits := p.flits.filter fun f => !l.contains f }

/-- Mesh cycles since the step's streams started, from domain time: 7 cycles in 4 ns (R277). -/
def Part.meshNow (p : Part) : Nat := (p.now - p.step.startAt) * 7 / 40

/-- GATE_LEAVE (R297, R298): 48 cycles after the gate opened every router at a GATE slot leaves it, in one cycle. -/
def execGateLeave (s : State) : Host.Outcome State Fault Refusal :=
  s.onPart fun p =>
    if !p.step.opening then p
    else
      let p : Part := p.flits.foldl (fun p f => p.orphans f.dest [f]) p
      let c := p.routers.foldl (fun n r => max n r.2.cycle) p.meshNow + 48
      let p : Part := { p with step := { p.step with opening := false, gatesLeft := p.step.gatesLeft + 1 } }
      let p : Part := { p with tiles := p.tiles.map fun e => (e.1, e.2.activate) }
      p.routers.foldl (fun (p : Part) e =>
        if e.2.state = .gate then
          (p.inc TL_MESH_WAIT_CYCLES (c - e.2.cycle) e.1).setRouter e.1 { e.2 with state := .running, slot := e.2.slot + 1, left := 0, cycle := c }
        else p) p

/-! ## Routers -/

/-- Grid column of a tile (R281). -/
def gridCol (t : Nat) : Nat := 16 * dieOf t + colOf t
def tileAt (row gc : Nat) : Nat := 256 * (gc / 16) + 16 * row + gc % 16

/-- Latency of an east-west hop between grid columns `gc` and `gc` + 1 (R279, R281). -/
def hopLatency (gc : Nat) : Nat :=
  if gc % 16 ≠ 15 then 2 else if gc % 48 = 47 then 12 else 4

/-- The router beyond a port (0 N, 1 E, 2 S, 3 W), the port it receives on, and the latency; none at the edge of the grid (R281). -/
def meshLink (t port : Nat) : Option (Nat × Nat × Nat) :=
  let r := rowOf t
  let c := gridCol t
  match port with
  | 0 => if r = 0 then none else some (tileAt (r - 1) c, 2, 1)
  | 1 => if c = 191 then none else some (tileAt r (c + 1), 3, hopLatency c)
  | 2 => if r = 15 then none else some (tileAt (r + 1) c, 0, 1)
  | 3 => if c = 0 then none else some (tileAt r (c - 1), 1, hopLatency (c - 1))
  | _ => none

/-- Every running neighbour has sent what arrives in the router's next cycle. -/
def Part.fedBy (p : Part) (t : Nat) : Bool :=
  (List.range 4).all fun k => match meshLink t k with
    | none => true
    | some (n, _, l) => (p.router n).state ≠ .running || (p.router t).cycle < (p.router n).cycle + l

/-- A slot's kind and fields (R285, R286, R290). -/
def slotKind (w : W64) : Nat := getB w 0 2
def routeField (w : W64) (out : Nat) : Nat × Nat := (getB w (20 + 6 * out) 3, getB w (23 + 6 * out) 3)

/-- LOOP slots in front of the slot at `i` are evaluated (R291). -/
def evalLoops (bank : List W64) : Nat → Nat → SMap (Bool × Nat) → Nat × SMap (Bool × Nat)
  | 0, i, loops => (i, loops)
  | n + 1, i, loops =>
    let w := bank.getD i 3
    if slotKind w ≠ 2 then (i, loops)
    else
      let c := getB w 2 2
      let (on, left) := mget (false, 0) loops c
      let left := if on then left else getB w 16 16
      if left = 0 then evalLoops bank n (i + 1) (mput (false, 0) loops c (false, 0))
      else evalLoops bank n (getB w 4 12) (mput (false, 0) loops c (true, left - 1))

/-- The 64 bytes of a sector as a flit, and back (R282). -/
def flitOf (bs : List Byte) : BitVec 512 := BitVec.ofNat 512 (leNat bs)
def flitBytes (f : BitVec 512) : List Byte := leBytes 64 f.toNat

/-- A reduction of two flits (R303); the second part counts INT32 lanes that saturated. -/
def reduceFlits (op : Nat) (a b : BitVec 512) : BitVec 512 × Nat :=
  let w := if op = 2 then 16 else 32
  let lane (x : BitVec 512) (i : Nat) : Nat := (x.toNat >>> (w * i)) % 2 ^ w
  let idx := List.range (512 / w)
  let sat (i : Nat) : Bool := op = 3 &&
    (sint 32 (lane a i) + sint 32 (lane b i) < -2147483648 || 2147483647 < sint 32 (lane a i) + sint 32 (lane b i))
  let f (i : Nat) : Nat := match op with
    | 1 => (fadd32 (BitVec.ofNat 32 (lane a i)) (BitVec.ofNat 32 (lane b i))).toNat
    | 2 => badd16 (lane a i) (lane b i)
    | 3 => toBits 32 (max (-2147483648) (min 2147483647 (sint 32 (lane a i) + sint 32 (lane b i))))
    | 4 => fminmax pFp32 true (lane a i) (lane b i)
    | _ => fminmax pFp32 false (lane a i) (lane b i)
  (BitVec.ofNat 512 (idx.foldl (fun n i => n + f i * 2 ^ (w * i)) 0), (idx.filter sat).length)

/-- A flit in a router: poison bit and data. -/
abbrev InFlit := Bool × BitVec 512

/-- The flit a slot reads from its injection stream (R295, R314, R321). -/
def Part.inject (p : Part) (t n : Nat) : Part × InFlit :=
  let x := p.tile t
  let d := x.stream n
  if p.meshGone t then (p, true, 0)
  else if d.count ≤ d.index then (p.meshFault t mStreamOverrun 4 n, true, 0)
  else
    let x := x.setStream n { d with index := d.index + 1, counter := d.counter + 1 }
    (p.setTile t (x.wakeCounters fun _ _ => false), false, flitOf (x.arrBytes (d.base + d.index * d.stride) 64))

/-- A flit written through an ejection stream (R295, R314, R319, R321). -/
def Part.eject (p : Part) (t n : Nat) (f : InFlit) : Part :=
  let x := p.tile t
  let k := streamKey true n
  let d := x.stream k
  if p.meshGone t then p
  else if d.count ≤ d.index then p.meshFault t mStreamOverrun 4 n
  else
    let bs := if f.1 then (List.range 16).flatMap fun _ => leBytes 4 0x7FC00000 else flitBytes f.2
    let a := d.base + d.index * d.stride
    let x := (x.arrPut (bs.mapIdx fun i b => (a + i, b))).setStream k { d with index := d.index + 1, counter := d.counter + 1 }
    let p := p.setTile t (x.wakeCounters fun _ _ => false)
    if f.1 then p.meshFault t mMeshPoison 4 n else p

/-- A flit sent on an output (R278–R281, R325). -/
def Part.sendFlit (p : Part) (t out ej : Nat) (f : InFlit) : Part :=
  let p := p.inc TL_MESH_COUNTS_FLITS 1 t
  let p := if f.1 then p.inc TL_MESH_COUNTS_POISON 1 t else p
  if out = 4 then p.eject t ej f
  else match meshLink t out with
    | none => p
    | some (n, q, l) => { p with flits := p.flits ++ [({ dest := n, port := q, cycle := (p.router t).cycle + l, poison := f.1, data := f.2 } : MeshFlit)] }

/-- One output of a slot (R287–R289, R303, R304). -/
def Part.routeOut (p : Part) (t : Nat) (w : W64) (ins : List MeshFlit) (inj : InFlit) (out : Nat) : Part :=
  let (src, op) := routeField w out
  if src = 0 then p
  else
    let a : Option InFlit := if src = 5 then some inj else (ins.find? fun f => f.port = src - 1).map fun f => (f.poison, f.data)
    match a with
    | none => (p.meshFault t mEmpty (src - 1) 0).sendFlit t out (getB w 17 3) (true, 0)
    | some a =>
      if op = 0 then p.sendFlit t out (getB w 17 3) a
      else if a.1 || inj.1 then p.sendFlit t out (getB w 17 3) (true, 0)
      else
        let (v, k) := reduceFlits op a.2 inj.2
        (p.inc TL_MESH_COUNTS_SAT k t).sendFlit t out (getB w 17 3) (false, v)

/-- Input ports a slot reads. -/
def slotReads (w : W64) (port : Nat) : Bool := (List.range 5).any fun o => (routeField w o).1 = port + 1
/-- Whether a slot reads its injection stream (R288, R289). -/
def slotInjects (w : W64) : Bool := (List.range 5).any fun o => (routeField w o).1 = 5 || ((routeField w o).1 ≠ 0 && (routeField w o).2 ≠ 0)

/-- One mesh cycle of a ROUTE slot (R280, R286–R289, R317). -/
def Part.routeCycle (p : Part) (t : Nat) (w : W64) (bridgeUe : Option Nat) : Part :=
  let r := p.router t
  let ins := p.flits.filter fun f => f.dest = t && f.cycle = r.cycle
  let p := { p with flits := p.flits.filter fun f => !(f.dest = t && f.cycle = r.cycle) }
  let hurt := ins.filter fun f => bridgeUe = some f.port
  let p := hurt.foldl (fun p f => p.meshFault t mBridgeUe f.port 0) p
  let ins := ins.map fun f => if bridgeUe = some f.port then { f with poison := true, data := 0 } else f
  let (p, inj) := if slotInjects w then p.inject t (getB w 14 3) else (p, true, 0)
  let p := (List.range 5).foldl (fun p o => p.routeOut t w ins inj o) p
  let p := (ins.filter fun f => !slotReads w f.port).foldl (fun p f => p.meshFault t mOrphan f.port 0) p
  let left := r.left - 1
  p.setRouter t { r with cycle := r.cycle + 1, left, slot := if left = 0 then r.slot + 1 else r.slot }

/-- The router reads its next slot from its active bank (R283, R285, R291, R318). -/
def Part.nextSlot (p : Part) (t : Nat) (err : EccErr) : Part :=
  let r := p.router t
  let p := if err = .ce then p.inc TL_MESH_WAIT_SCHED_CE 1 t else p
  if err = .ue || err = .tagUe then
    (p.meshFault t mSchedEcc 0 0).setRouter t { r with state := .silent }
  else
    let (i, loops) := evalLoops r.bank (2 ^ 76) r.slot r.loops
    let w := r.bank.getD i 3
    let r := { r with slot := i, loops, cur := some w }
    match slotKind w with
    | 0 => p.setRouter t { r with left := getB w 2 12 + 1 }
    | 1 => p.setRouter t { r with state := .gate }
    | _ => p.setRouter t { r with state := .ended }

/-- ROUTER_SLOT (R280–R291, R303, R304, R314, R317–R321): the next mesh cycle of a router, or the next flit that reaches one that runs no
ROUTE slot. -/
def execRouterSlot (r : TileId) (sched : EccErr) (bridgeUe : Option (Fin 4)) (s : State) : Host.Outcome State Fault Refusal :=
  s.onPart fun p =>
    let x := p.router r
    match x.state with
    | .idle | .stopped => p
    | .gate | .ended => p.orphans r ((p.flits.find? fun f => f.dest = r.val).toList)
    | .silent => { p with flits := p.flits.filter fun f => f.dest ≠ r.val }
    | .running =>
      if !p.fedBy r then p
      else
        let p := if x.left = 0 then p.nextSlot r sched else p
        match (p.router r).state, (p.router r).cur with
        | .running, some w => p.routeCycle r w (bridgeUe.map (·.val))
        | _, _ => p

end Sys2Proof.Machine
end

