-- ==== Sys2Proof/Machine/Links.lean ====
section
/-! DEFINITION. Machine/Links.lean: the store buffer's drain, data that come back to a tile, the
lost-write log (07, 10, 13). -/

namespace Sys2Proof.Machine

/-! ## Lost-write log (R517, R518) -/

/-- One entry of the lost-write log. -/
def Part.logLost (p : Part) (peer : Nat) (inbound : Bool) (origin unit fn : Nat) (step : Bool) (sid writes : Nat) : Part :=
  let n := p.rd GLOBAL_LOSTW_STATUS_NEXT
  let w0 : W64 := setB (setB (setB (setB (setB (setB (setB (setB 0 0 6 peer) 6 1 (b2n inbound)) 8 3 origin) 11 12 unit) 23 6 fn) 29 1 (b2n step))
    32 12 sid) 48 16 (min writes 65535)
  let w1 : W64 := setB (setB 0 0 48 p.tickNo) 63 1 1
  let p := p.setReg reg_GLOBAL_LOSTW0 w0 0 n
  let p := p.setReg reg_GLOBAL_LOSTW1 w1 0 n
  let p := p.wr GLOBAL_LOSTW_STATUS_NEXT (n + 1)
  let p := p.inc GLOBAL_LOSTW_STATUS_ENTRIES
  if n = 63 then p.set1 GLOBAL_LOSTW_STATUS_WRAPPED else p

/-- A tile's writes to a dead peer are dropped (R503, R504): counted, TL_FENCE set, and the releases that waited for them know it. `ids` are the
numbers of the dropped entries. -/
def Part.tileLost (p : Part) (t peer : Nat) (ids : List Nat) : Part :=
  if ids.isEmpty then p
  else
    let p := p.inc TL_FENCE_LOST_WRITES ids.length t
    let p := p.set1 TL_FENCE_PEER_LOST t
    let p := p.wr TL_FENCE_PEER peer t
    p.modTile t fun x => { x with groups := x.groups.map fun c => (c.1, match c.2.wait with
      | .release r => if ids.any fun i => i < r.since then { c.2 with wait := .release { r with lost := true } } else c.2
      | _ => c.2) }

/-! ## Store-buffer drain (R345, R349, R359, R479, R497, R601) -/

/-- Where an entry drains to: a remote device, or a slice. -/
def Part.sbDest (p : Part) (e : SbEntry) : Option Nat × Nat := (e.dev, if e.dev.isSome then 0 else p.served e.sector)

/-- An entry whose device is dead and no member. -/
def Part.deadDev (p : Part) (d : Nat) : Bool := (p.reg reg_GLOBAL_DEAD).getLsbD d && !p.member d

/-- An entry that can leave: ready, the oldest unsent of its destination, its port takes it. -/
def Part.drainable (p : Part) (older : List SbEntry) (e : SbEntry) : Bool :=
  e.ready && !e.sent && !(older.any fun f => !f.sent && p.sbDest f = p.sbDest e) &&
  (match e.dev with
    | none => true
    | some d => p.deadDev d || ((p.portFor d).map fun i => p.canSend i true).getD false)

/-- The entry that leaves next, if any. -/
def Part.nextDrain (p : Part) : List SbEntry → List SbEntry → Option SbEntry
  | _, [] => none
  | older, e :: r => if p.drainable older e then some e else p.nextDrain (older ++ [e]) r

/-- Writes of a key sent to a device since its previous FINAL (R601). -/
def Part.keyCount (p : Part) (k : RemoteKey) (d : Nat) : Nat :=
  ((p.domain.sentKeys.find? fun c => c.1 = k && c.2.1 = d).map fun c => c.2.2).getD 0
def Part.setKeyCount (p : Part) (k : RemoteKey) (d n : Nat) : Part :=
  let rest := p.domain.sentKeys.filter fun c => !(c.1 = k && c.2.1 = d)
  { p with domain := { p.domain with sentKeys := if n = 0 then rest else rest ++ [(k, d, n)] } }

def Tile.sbDrop (x : Tile) (id : Nat) : Tile := { x with sb := x.sb.filter fun c => c.id ≠ id }
def Tile.sbSent (x : Tile) (id : Nat) : Tile := { x with sb := x.sb.map fun c => if c.id = id then { c with sent := true } else c }

/-- A remote write leaves by port `i` (R495, R500, R589, R601): the tile waits for its acknowledgement. -/
def Part.drainRemote (p : Part) (t d i : Nat) (e : SbEntry) : Part :=
  let k := p.tileKey t e.sid
  let n := p.keyCount k d
  let seq := p.nextSeq d
  let p := (p.bumpSeq d).setKeyCount k d (if e.fin then 0 else n + 1)
  let p := (p.sendPort i true).emit (.remoteReq d seq e.sector k e.kind e.bytes (if e.fin then some n else none))
  (p.modTile t fun x => x.sbDrop e.id).modTile t fun x =>
    { x with unacked := x.unacked ++ [({ dev := d, seq, id := e.id, group := e.group, sid := e.sid } : Unacked)] }

/-- The request of an entry to its home slice. -/
def Part.drainSlice (p : Part) (t : Nat) (e : SbEntry) (kind : ReqKind) (lanes : List LaneAcc) : Part :=
  ((p.modTile t fun x => x.sbSent e.id).noKeep t e.sector).send
    { id := 0, tile := t, group := e.group, kind, sector := e.sector, lanes, sb := some e.id, sentAt := p.now }

/-- An entry of this device leaves: into L1, or to its home slice. -/
def Part.drainLocal (p : Part) (t : Nat) (e : SbEntry) : Part :=
  let cells := e.bytes.map fun b => (e.sector + b.1, b.2)
  match e.kind with
  | .store =>
    if p.cacheable t e.sector && (p.tile t).l1Valid e.sector then
      let p := p.modTile t fun x => x.l1Put cells
      if e.marked then p.drainSlice t e (.store cells) []
      else p.modTile t fun x => (x.l1Mod e.sector fun l => { l with dirty := l.dirty ||| ((1 : BitVec 4) <<< sectorIdx e.sector) }).sbDrop e.id
    else p.drainSlice t e (.store cells) []
  | .red op ty lanes => (p.l1Drop t e.sector true).drainSlice t e (.atomic op ty false false) lanes
  | .discard => ((List.range 4).foldl (fun (p : Part) k => p.l1Drop t (e.sector + 64 * k) false) p).drainSlice t e .discard []

/-- STORE_BUFFER_DRAIN (R345, R349, R359, R479, R503): the next entry of a tile's store buffer leaves it. -/
def execStoreBufferDrain (t : TileId) (s : State) : Host.Outcome State Fault Refusal :=
  s.onPart fun p => match p.nextDrain [] (p.tile t).sb with
    | none => p
    | some e => match e.dev with
      | none => p.drainLocal t e
      | some d =>
        if p.deadDev d then
          (((p.modTile t fun x => x.sbDrop e.id).logLost d false 0 t (p.tileFn t) (p.tileStep t) e.sid.toNat 1).tileLost t d [e.id])
        else match p.portFor d with
          | some i => p.drainRemote t d i e
          | none => p

/-! ## Data that come back to a tile (R140, R165, R344, R449, R598–R600) -/

/-- The register of a lane still waits for request `id`. -/
def Group.awaits (y : Group) (r l id : Nat) : Bool := y.pend.any fun c => c.1 = 32 * r + l && c.2 = id

/-- The lane's registers that still wait for the request take their data or its mark. -/
def Group.deliverLane (y : Group) (id addr n : Nat) (sx : Bool) (c : LaneAcc) (bs : List Byte) (m : Option RegMark) : Group :=
  ((dataRegs c.reg n).mapIdx fun i r => (i, r)).foldl (fun (y : Group) (e : Nat × Nat) =>
    if !y.awaits e.2 c.lane id then y
    else match m with
      | some k => { y with marks := mins y.marks (32 * e.2 + c.lane) (k, addr), pend := mdel y.pend (32 * e.2 + c.lane) }
      | none => y.putLane e.2 c.lane (if n < 4 then extend sx (8 * n) (leNat bs) else BitVec.ofNat 32 (leAt bs (4 * e.1) 4))) y

/-- Bytes a request returns for each lane. -/
def ReqKind.laneBytes : ReqKind → Nat
  | .load n _ _ => n
  | .atomic _ ty _ _ => atomSize ty
  | .ldrsv wide _ => if wide then 8 else 4
  | .stcnd _ => 4
  | _ => 0

/-- Whether a request returns anything to registers. -/
def ReqKind.returns : ReqKind → Bool
  | .load _ _ _ => true
  | .atomic _ _ _ r => r
  | .ldrsv _ _ => true
  | .stcnd _ => true
  | _ => false

/-- The 64-bit address of a lane's access. -/
def Req.laneAddr (q : Req) (c : LaneAcc) : Nat := match q.dev with
  | some d => 2 ^ 56 + d * 2 ^ 48 + c.addr
  | none => c.addr

/-- The bytes of a lane: from the sector's data with the issuer's own bytes over it, or from the lane values. -/
def Req.laneData (q : Req) (data : List Byte) (c : LaneAcc) : List Byte := match q.kind with
  | .load n _ _ => (List.range n).map fun i =>
      match q.beyond.find? fun b => b.1 = c.addr + i with
      | some b => b.2
      | none => data.getD (c.addr % 64 + i) 0
  | k => leBytes k.laneBytes (((q.vals.find? fun v => v.1 = c.lane).map fun v => v.2.toNat).getD 0)

/-- The reply of a request reaches its tile. -/
def Part.deliver (p : Part) (q : Req) (data : List Byte) (m : Option RegMark) : Part :=
  let sx := match q.kind with | .load _ sx _ => sx | _ => false
  let p := p.dropReq q.id
  let p := p.modGroup q.tile q.group fun y => q.lanes.foldl (fun (y : Group) c =>
    y.deliverLane q.id (q.laneAddr c) q.kind.laneBytes sx c (q.laneData data c) m) y
  if q.cached && m.isNone then p.l1Fill q.tile q.sector data else p

/-- LOAD_DATA_RETURN (R140, R165, R344, R429, R438, R439, R540): the reply of a request a slice has performed. -/
def execLoadDataReturn (id : Nat) (s : State) : Host.Outcome State Fault Refusal :=
  s.onPart fun p => match p.req id with
    | none => p
    | some q =>
      if q.state ≠ .performed || !q.kind.returns then p
      else match q.kind with
        | .load _ _ _ =>
          let (p, bs, m) := p.tileData q.tile q.sector q.data q.mark
          p.deliver q bs m
        | _ => p.deliver q q.data q.mark

end Sys2Proof.Machine
end

