-- ==== Sys2Proof/Machine/Revoke.lean ====
section
/-! DEFINITION. Machine/Revoke.lean: REVOKE of held resources by scope (09). -/

namespace Sys2Proof.Machine

/-- Kinds of scope (R463). -/
def scTile := 1
def scPod := 2
def scFn := 3
def scStep := 4
def scFirmware := 5
def scPeer := 6
def scIngest := 7

/-- Holder number of a thread group of another device: above every logical tile, with the device and whether it is step work. -/
def remoteHolder (sender : Nat) (step : Bool) (tile : Nat) : Nat := 4096 * (1 + sender + 64 * b2n step) + tile % 4096

/-- A resource held by tile `t`, or by a remote holder, matches a scope (R463). -/
def Part.inScope (p : Part) (kind id t : Nat) : Bool :=
  if 4096 ≤ t then (kind = scPeer && (t / 4096 - 1) % 64 = id) || (kind = scStep && 64 ≤ t / 4096 - 1)
  else match kind with
  | 1 => t = id
  | 2 => podOf t = id
  | 3 => !p.tileStep t && (p.tile t).work ≠ .idle && p.tileFn t = id
  | 4 => p.tileStep t
  | _ => false

/-- What REVOKE releases at one slice (R464): reservations, leases, queued atomics, read and atomic waiters. -/
def Slice.revoke (z : Slice) (gone : Nat → Bool) (drop : List Nat) : Slice :=
  { z with
    rsvs := z.rsvs.filter fun r => !gone r.tile
    leases := z.leases.filter fun r => !gone r.tile
    qualified := z.qualified.filter fun r => !gone r.1
    claims := z.claims.filter fun c => !gone c.tile
    pins := (z.pins.map fun e => { e with queue := e.queue.filter fun i => !drop.contains i }).filter fun e => !e.queue.isEmpty
    entries := z.entries.map fun e => { e with waiters := e.waiters.filter fun i => !drop.contains i }
    waitWay := z.waitWay.filter fun i => !drop.contains i
    waitEntry := z.waitEntry.filter fun i => !drop.contains i
    waitPin := z.waitPin.filter fun i => !drop.contains i }

/-- How many holds a slice loses. -/
def Slice.revoked (z : Slice) (gone : Nat → Bool) (drop : List Nat) : Nat :=
  (z.rsvs.filter fun r => gone r.tile).length + (z.leases.filter fun r => gone r.tile).length +
  (distinct ((z.claims.filter fun c => gone c.tile).map fun c => 16 * c.tile + c.group)).length +
  (z.pins.flatMap fun e => e.queue.filter fun i => drop.contains i).length +
  (z.entries.flatMap fun e => e.waiters.filter fun i => drop.contains i).length

/-- A request that REVOKE drops: a read or an atomic that waits at its slice (R464). Waiting stores stay. -/
def Req.revocable (q : Req) : Bool :=
  q.state = .waiting && (match q.kind with
    | .store _ => false
    | .discard => false
    | .hint => false
    | .claim _ => false
    | _ => true)

/-- The routers stop, flits on links are discarded (R315, R464). -/
def Part.stopMesh (p : Part) : Part :=
  { p with flits := []
           routers := p.routers.map fun c => (c.1, if c.2.state = .idle then c.2 else { c.2 with state := .stopped })
           step := { p.step with opening := false } }

/-- Open transactions of a tile in scope abort with REVOKED: their groups learn it (R455, R464). -/
def Part.revokeTx (p : Part) (t : Nat) : Part :=
  let gs := (p.tile t).groups.filter fun c => match c.2.tx with
    | some x => x.notice.isNone
    | none => false
  gs.foldl (fun p c => match c.2.tx with
    | none => p
    | some x =>
      let p := p.txNotice t c.1 11 0
      match x.lines with
      | [] => p
      | (l, _, _) :: _ => (p.inc LLC_TX_ABORTS 1 (p.served l)).wr LLC_TX_LAST_ABORT 11 (p.served l)) p

/-- REVOKE (R464, R465): what is held or queued in the scope is released; LLC_REVOKE of every slice counts it. -/
def Part.revoke (p : Part) (kind id : Nat) : Part :=
  let gone (t : Nat) : Bool := p.inScope kind id t
  let drop := (p.net.filter fun q => gone q.tile && q.revocable).map (·.id)
  let entries := (p.net.filter fun q => drop.contains q.id).filterMap fun q => q.sb.map fun e => (q.tile, e)
  let p0 := (p.tiles.filter fun c => gone c.1).foldl (fun p c => p.revokeTx c.1) p
  let p1 : Part := { p0 with net := p0.net.filter fun q => !drop.contains q.id }
  let p2 := entries.foldl (fun (p : Part) e => p.modTile e.1 fun x => x.sbDrop e.2) p1
  let p3 := (List.range 256).foldl (fun (q : Part) s =>
    let n := (q.slice s).revoked gone drop
    let q := q.modSlice s fun z => z.revoke gone drop
    ((q.inc LLC_REVOKE_COUNT 1 s).wr LLC_REVOKE_LAST_SCOPE (4096 * kind + id) s).inc LLC_REVOKE_RELEASED n s) p2
  if kind = scStep then p3.stopMesh else p3

end Sys2Proof.Machine
end

