-- ==== Sys2Proof/Machine/Work.lean ====
section
/-! DEFINITION. Machine/Work.lean: kernels on their tiles: placing blocks, ending on a tile, charging a function; weight channels; powering tiles
down and up (02, 03, 07, 16, 17). -/

namespace Sys2Proof.Machine

/-! ## Accounting (R682, R694) -/

/-- A counter of R694 in microseconds grows by `d` tenths of a nanosecond; the remainder is kept under key 16 × f + `c`. -/
def Part.charge (p : Part) (f : Fld) (c fn d : Nat) : Part :=
  let rem := mget 0 p.sched.frac (16 * fn + c) + d
  let p := { p with sched := { p.sched with frac := mput 0 p.sched.frac (16 * fn + c) (rem % 10000) } }
  p.inc f (rem / 10000) 0 fn

def Part.share (p : Part) (fn : Nat) : Nat := p.rd SCHED_FN_CFG_SHARE 0 fn
/-- A function has a record (R674). -/
def Part.hasRecord (p : Part) (fn : Nat) : Bool := p.share fn ≠ 0

/-- V_f grows by 65,536 ÷ SHARE_f for each pod-microsecond (R682). -/
def Part.chargeV (p : Part) (fn d : Nat) : Part :=
  if !p.hasRecord fn then p
  else
    let u := p.share fn * 10000
    let n := mget 0 p.sched.frac (16 * fn + 8) + 65536 * d
    let p := { p with sched := { p.sched with frac := mput 0 p.sched.frac (16 * fn + 8) (n % u) } }
    p.inc SCHED_FN_VT_V (n / u) 0 fn

/-- Engine time of a function with a record (R682, R694). -/
def Part.chargeEngine (p : Part) (fn d : Nat) : Part :=
  if p.hasRecord fn then (p.charge SCHED_FN_ENGINE_V 0 fn d).chargeV fn d else p
def Part.chargeLost (p : Part) (fn d : Nat) : Part := if p.hasRecord fn then p.charge SCHED_FN_LOST_V 4 fn d else p
def Part.chargeSaved (p : Part) (fn d : Nat) : Part := if p.hasRecord fn then p.charge SCHED_FN_SAVED_V 5 fn d else p
def Part.chargeWait (p : Part) (fn d : Nat) : Part := if p.hasRecord fn then p.charge SCHED_FN_WAIT_V 1 fn d else p

/-! ## Pods -/

def Part.podRun (p : Part) (q : Nat) : PodRun := mget {} p.sched.pods q
def Part.setPodRun (p : Part) (q : Nat) (r : PodRun) : Part := { p with sched := { p.sched with pods := mput {} p.sched.pods q r } }
def Part.podState (p : Part) (q : Nat) : Nat := p.rd PD_STATUS_STATE q

/-- A pod's engine time up to now is charged to the function of its kernel. -/
def Part.chargePod (p : Part) (q : Nat) : Part :=
  let r := p.podRun q
  match r.kernel.bind p.kernel with
  | some k => if p.podState q = 1 then (p.chargeEngine k.fn (p.now - r.charged)).setPodRun q { r with charged := p.now } else p
  | none => p

/-- The owner tag of a pod (R24, R701). -/
def Part.setOwner (p : Part) (q kind fn state : Nat) : Part :=
  ((p.wr PD_STATUS_OWNER_KIND kind q).wr PD_STATUS_OWNER_FN fn q).wr PD_STATUS_STATE state q

/-- A pod becomes free. -/
def Part.freePod (p : Part) (q : Nat) : Part := (p.setOwner q 0 0 0).setPodRun q {}

/-! ## Kernels -/

def Part.setKernel (p : Part) (k : Nat) (x : Option Kernel) : Part := { p with sched := { p.sched with kernels := mput none p.sched.kernels k x } }

/-- The tiles of a kernel, in logical order (R130). -/
def kernelTiles (k : Kernel) : List Nat := (List.range 3072).filter fun t => inMask k.p.pods (podOf t)

/-- The block a tile starts next (R130). -/
def nextBlockOf (k : Kernel) (x : Tile) (t : Nat) : Nat :=
  let ts := kernelTiles k
  (ts.filter (· < t)).length + x.nextPos * ts.length

/-- Status and DETAIL of a kernel that has ended on every pod (R162, R504, R598, R664). -/
def Kernel.status (k : Kernel) : Nat × Nat :=
  if k.killed then (stAborted, 0)
  else match k.firstFault with
    | some (code, t) => (code, t)
    | none => if k.denied then (0x0E, 0) else if k.peerLost then (stFencePeerLost, 0) else (stOK, 0)

/-- The kernel has ended on every pod it names: its launching command completes (R162, R491). -/
def Part.finishKernel (p : Part) (k : Nat) : Part :=
  match p.kernel k with
  | none => p
  | some x =>
    if (maskPods x.p.pods).all (fun q => inMask x.podsEnded q) then
      let p := p.setKernel k none
      let p : Part := { p with sched := { p.sched with order := delNat p.sched.order k } }
      p.reply x.issue x.status.1 x.status.2
    else p

/-- A kernel has ended on a pod. -/
def Part.podDone (p : Part) (k q : Nat) : Part :=
  match p.kernel k with
  | none => p
  | some x => (p.setKernel k (some { x with podsEnded := x.podsEnded ||| ((1 : PodMask) <<< q) })).finishKernel k

/-- What is left of a tile when the work on it is over; memory, accumulators and L1 are cleared when the next work starts (R331). -/
def Tile.clearWork (x : Tile) : Tile :=
  { x with work := .idle, seq := .none, stopping := false, faulted := false, nextPos := 0, blocks := [], groups := [], consumer := none }

/-- Groups that stopped for good leave their tile with what they hold at the slices (R162, R440, R455). -/
def Part.clearGroups (p : Part) (t : Nat) : Part :=
  let gs := (p.tile t).groups.map (·.1)
  let p := gs.foldl (fun p g => ((p.txRelease t g 15).dropRsv t g)) p
  let p : Part := { p with net := p.net.filter fun q => !(q.tile = t && q.state = ReqState.held) }
  p.modTile t fun x => { x with groups := [], blocks := [], sb := x.sb.filter fun e => e.ready || e.sent }

/-- The next kernel or step finds a clear tile (R331): L1 empty, array and accumulator memory zero, the split set. -/
def Part.startTile (p : Part) (t l1 : Nat) (w : Work) : Part :=
  let p := p.modTile t fun x => { x.clearWork with
    work := w, l1 := [], l1Ptr := [], l1Data := [], arr := [], acc := [], ops := [], ptc := [], headers := [], slotRec := [],
    gated := false, gating := false }
  (p.wr TL_ARRAY_L1_SIZE l1 t).wr TL_ARRAY_SCRATCH_4K (scratchOf l1 / 4096) t

/-- A group as it starts (R127, R133, R144, R496). -/
def Part.newGroup (p : Part) (slot index nReg : Nat) (pc : Pc) : Group :=
  { block := slot, index, nReg, live := 0xFFFFFFFF, paths := [{ pc, mask := 0xFFFFFFFF }], tick := BitVec.ofNat 32 p.tickNo }

/-- A block of `g` groups takes the lowest free block slot, group slots and local range (R128, R134, R338). -/
def Part.placeBlock (p : Part) (t index g nReg localBytes : Nat) (pc : Pc) : Part :=
  let x := p.tile t
  let l := (localBytes + 4095) / 4096 * 4096
  let slot := ((List.range 8).find? fun b => !(x.block b).used).getD 0
  let base := (((List.range 128).find? fun k => !(x.usedBlocks.any fun b => b.base = k * l && b.size ≠ 0)).getD 0) * l
  let free := ((List.range 16).filter fun i => (x.group i).live = 0).take g
  let x := x.setBlock slot { used := true, index, groups := g, base := if l = 0 then 0 else base, size := l }
  p.setTile t ((free.mapIdx fun i c => (i, c)).foldl (fun (x : Tile) e => x.setGroup e.2 (p.newGroup slot e.1 nReg pc)) x)

/-- A tile can start its next block (R130, R137, R162). -/
def Part.blockReady (p : Part) (t : Nat) : Option (Nat × Kernel × Nat) :=
  let x := p.tile t
  match x.work with
  | .kernel i => match p.kernel i with
    | some k =>
      let b := nextBlockOf k x t
      if x.seq = .none && !x.stopping && !x.faulted && !x.inReset && !k.killed && decide (b < k.p.blocks) && inMask k.p.pods (podOf t) &&
          decide (x.usedBlocks.length < residentBlocks k.p.groups k.p.nReg k.p.localBytes (p.scratch t)) then some (i, k, b) else none
    | none => none
  | _ => none

/-- BLOCK_START (R130, R137). The first block of a kernel ends the WAIT of its LAUNCH (R694). -/
def execBlockStart (t : TileId) (now : Nat) (s : State) : Host.Outcome State Fault Refusal :=
  s.onPart fun p => match p.blockReady t with
    | none => p
    | some (i, k, b) =>
      let p := p.at now
      let p := p.modTile t fun x => { x with nextPos := x.nextPos + 1 }
      let p := p.placeBlock t b k.p.groups k.p.nReg k.p.localBytes (BitVec.ofNat 48 k.p.code)
      if k.began then p else (p.setKernel i (some { k with began := true })).chargeWait k.fn (p.now - k.accepted)

/-- The kernel is no longer on tile `t`: when it was the last of its pod the pod is free. -/
def Part.leaveKernel (p : Part) (t k : Nat) : Part :=
  let q := podOf t
  let busy := (podTiles q).any fun u => (p.tile u).work = .kernel k
  if busy || (p.podRun q).kernel ≠ some k then p
  else ((p.chargePod q).freePod q).podDone k q

/-- The kernel has ended on tile `t`. -/
def Part.tileDone (p : Part) (t k : Nat) : Part := (p.modTile t Tile.clearWork).leaveKernel t k

/-- No block of the kernel is left to start on the tile. -/
def Part.blocksOver (p : Part) (t : Nat) (k : Kernel) : Bool := k.killed || (p.tile t).faulted || decide (k.p.blocks ≤ nextBlockOf k (p.tile t) t)

/-- The end sequence of a tile (R332, R333, R491): none when something of it is still to come; L1 is written back once the store buffer is
empty. The flag tells that all is done. -/
def Part.drainTile (p : Part) (t : Nat) (seq : TileSeq) : Part × Bool :=
  let x := p.tile t
  if !x.sb.isEmpty then (p, false)
  else if !x.dirtySectors.isEmpty then ((p.l1WriteBack t true).modTile t fun x => { x with seq := seq }, false)
  else (p, p.wbDone t p.nextId && x.unacked.isEmpty)

/-- KERNEL_END (R162, R332, R333, R491). -/
def execKernelEnd (t : TileId) (now : Nat) (s : State) : Host.Outcome State Fault Refusal :=
  s.onPart fun p => match (p.tile t).work with
    | .kernel i => match p.kernel i with
      | some k =>
        let x := p.tile t
        if (x.stopping && x.seq ≠ .ending) || !p.blocksOver t k then p
        else
          let p := p.at now
          let p := if x.faulted || k.killed then p.clearGroups t else p
          if !((p.tile t).live).isEmpty then p
          else
            let (p, ok) := p.drainTile t .ending
            if ok then p.tileDone t i else p
      | none => p
    | _ => p

/-- A kernel is ended by a command: it starts no more blocks, its running tiles end, saved state is discarded and the pods it has not reached
count as ended (R680, R681). -/
def Part.killKernel (p : Part) (k : Nat) : Part :=
  match p.kernel k with
  | none => p
  | some x =>
    let p := p.setKernel k (some { x with killed := true })
    let saved := p.sched.saved.filter fun v => v.kernel = k
    let p : Part := { p with sched := { p.sched with saved := p.sched.saved.filter fun v => v.kernel ≠ k } }
    let p := saved.foldl (fun (p : Part) v =>
      let still := p.sched.saved.any fun w => w.pod = v.pod && w.fn = v.fn
      let p := p.wr SCHED_FN_CFG_SLOTS_USED (p.rd SCHED_FN_CFG_SLOTS_USED 0 v.fn - 1) 0 v.fn
      if still then p else p.wr PD_SAVED_FN ((p.reg reg_PD_SAVED v.pod) &&& ~~~((1 : W64) <<< v.fn)).toNat v.pod) p
    let p := p.tiles.foldl (fun (p : Part) c => if c.2.work = .kernel k then p.clearGroups c.1 else p) p
    (maskPods x.p.pods).foldl (fun (p : Part) q => if (p.podRun q).kernel = some k then p else p.podDone k q) p

/-- Every kernel of a function ends with ABORTED. -/
def Part.killFn (p : Part) (fn : Nat) : Part :=
  p.sched.kernels.foldl (fun (p : Part) c => match c.2 with
    | some k => if k.fn = fn then p.killKernel c.1 else p
    | none => p) p

/-! ## Weight channels (R91–R93, R540) -/

/-- WEIGHT_DESCRIPTOR_ACTIVE (R92): the channel's next descriptor, once the one before is written whole and its gates have opened. -/
def execWeightDescriptorActive (t : TileId) (ch : Fin 2) (s : State) : Host.Outcome State Fault Refusal :=
  s.onPart fun p =>
    let x := p.tile t
    let w := x.weight ch
    let beyond := (w.active.map fun d => decide (d.lines ≤ w.counter)).getD true
    match w.queue with
    | [] => p
    | d :: rest =>
      if !p.step.running || !p.step.started || !beyond || p.step.gatesLeft < d.gate || p.meshGone t then p
      else
        let x : Tile := { x with weights := mput {} x.weights ch.val { queue := rest, active := some d, written := [] } }
        let p := p.setTile t (x.wakeCounters fun k n => match k with | .weight => n = ch.val | _ => false)
        if d.prefetch then
          ((List.range d.lines).filter fun j => p.granted 0 (d.src + 256 * j) 1 false).foldl (fun (p : Part) j =>
            p.send { id := 0, tile := t, group := 16, kind := .hint, sector := d.src + 256 * j, oid := 17 }) p
        else p

/-- A fault the step meets on a tile outside any instruction (R93, R139): recorded on the tile. -/
def Part.tileFault (p : Part) (t code addr : Nat) : Part :=
  (p.capture t 0 { code, addr } 0 true 0).endWork t code addr

/-- WEIGHT_LINE_WRITE (R92, R93, R370, R540): one line arrives and is written whole. -/
def execWeightLineWrite (t : TileId) (ch : Fin 2) (line : Nat) (err : EccErr) (errSector : Fin 4) (s : State) : Host.Outcome State Fault Refusal :=
  s.onPart fun p =>
    let w := (p.tile t).weight ch
    match w.active with
    | none => p
    | some d =>
      let a := d.src + 256 * line
      if d.lines ≤ line || w.written.contains line || !p.step.running || p.meshGone t then p
      else if !p.granted 0 a 256 false then p.tileFault t fAccessDenied a
      else
        let (p, bytes, bad) := (List.range 4).foldl (fun (acc : Part × List Byte × Option (Nat × RegMark)) k =>
          let (p, bs, m) := acc.1.readSector (a + 64 * k) (p.meets (a + 64 * errSector) err (p.tileOwner t))
          let (p, bs, m) := p.tileData t (a + 64 * k) bs m
          (p, acc.2.1 ++ bs, match acc.2.2, m with
            | none, some v => some (a + 64 * k, v)
            | v, _ => v)) (p, [], none)
        match bad with
        | some (b, m) => p.tileFault t (markCode m) b
        | none => p.modTile t fun x =>
          let x := x.arrPut (bytes.mapIdx fun i b => (d.dst + 256 * line + i, b))
          let w := x.weight ch
          ({ x with weights := mput {} x.weights ch.val { w with written := insNat w.written line } } : Tile).wakeCounters fun _ _ => false

/-! ## Power-down of tiles (R171, R730) -/

/-- A tile is gated: it comes up in the reset state of R20. `lost` entries were discarded. -/
def Part.gateTileOff (p : Part) (t lost cause : Nat) : Part :=
  let p := p.modTile t fun x => { x.clearWork with
    gated := true, gating := false, sb := [], l1 := [], l1Ptr := [], l1Data := [], arr := [], acc := [], ops := [], ptc := [],
    headers := [], slotRec := [], streams := [], stagedStreams := [], openStreams := [], weights := [], ready := 0, readyOut := false }
  let p := p.wr TL_RESET_STATUS_LOST_STORES (min lost 32) t
  let p := p.wr TL_RESET_STATUS_CAUSE cause t
  if lost = 0 then p else p.set1 TL_EVENTS_STORES_LOST t

/-- A tile with no group and no work. -/
def Tile.vacant (x : Tile) : Bool := x.live.isEmpty && x.work = .idle && !x.inReset && !x.gated

/-- IDLE_GATE (R171, R730): a tile that has held no group for IDLE_GATE_US is powered down; a store buffer that holds entries drains first. -/
def execIdleGate (t : TileId) (s : State) : Host.Outcome State Fault Refusal :=
  s.onPart fun p =>
    if !(p.tile t).vacant then p
    else if (p.tile t).sb.isEmpty then p.gateTileOff t 0 0
    else p.modTile t fun x => { x with gating := true }

/-- DRAIN_LIMIT (R171): the entries still in the store buffer 4 µs after a power-down request are discarded. -/
def execDrainLimit (t : TileId) (s : State) : Host.Outcome State Fault Refusal :=
  s.onPart fun p =>
    let x := p.tile t
    if !x.gating || x.sb.isEmpty then p
    else
      let ids := x.sb.map (·.id)
      let p : Part := { p with net := p.net.filter fun q => !(q.tile = t.val && q.state = ReqState.sent && (q.sb.map ids.contains).getD false) }
      (p.gateTileOff t x.sb.length 2).set1 TL_EVENTS_DRAIN_LIMIT t

/-- A tile is powered up (R730). -/
def Part.powerUp (p : Part) (t : Nat) : Part := p.modTile t fun x => { x with gated := false, gating := false }

end Sys2Proof.Machine
end

