-- ==== Sys2Proof/Machine/Symbite.lean ====
section
/-! DEFINITION. Machine/Symbite.lean: what every Symbite command passes through: the header and class checks of the Husk, forwarding (15, 19); the
commands that only query. -/

namespace Sys2Proof.Machine

/-- Bit of a class in HUSK_OPC.CLASSES and code in CMD_REJECT.CLASS (R673, R799). -/
def classCode : CmdClass → Nat
  | .m => 0
  | .t => 1
  | .b => 2
  | .d => 3
  | .l => 4

/-- The classes R661 gives the opcodes, as bits, in its order. -/
def opClasses : List Nat :=
  [0x1F, 0x1F, 0x01, 0x01, 0x1D, 0x03, 0x03, 0x01, 0x01, 0x01, 0x03, 0x01, 0x01, 0x01, 0x01, 0x01, 0x11, 0x03, 0x03, 0x03, 0x03, 0x01, 0x01,
   0x01, 0x01, 0x01, 0x01, 0x03, 0x03, 0x01, 0x03, 0x03, 0x11, 0x01, 0x01, 0x1D, 0x05, 0x01, 0x0D, 0x11, 0x0F, 0x0F, 0x05, 0x05, 0x04]

/-- The opcodes of R661 that may be forwarded, by index. -/
def opForwards : List Nat :=
  [0, 1, 4, 10, 11, 12, 13, 14, 15, 16, 17, 18, 19, 20, 22, 23, 24, 25, 26, 27, 28, 29, 32, 34, 35, 36, 37, 38, 39, 40, 41]

/-- Commands a part answers after a fatal error (R748): NOP, IDENTIFY, LOG_READ, SENSOR_READ, GET_ATTEST. -/
def opFatal : List Nat := [0, 1, 4, 38, 40]

/-- A class may issue opcode number `i` (R658): the bounds the Husk holds. -/
def Part.admits (p : Part) (i : Nat) (c : CmdClass) : Bool := (p.rd HUSK_OPC_CLASSES 0 i).testBit (classCode c)

/-- The Husk's capture of a rejected packet: counted, the first one held (R658, R673). -/
def Part.huskCapture (p : Part) (op status cls fn : Nat) : Part :=
  let p := p.inc CMD_COUNTS_DENIED
  if p.rd CMD_REJECT_VALID = 1 then p
  else p.setReg reg_CMD_REJECT (setB (setB (setB (setB (setB 0 0 16 op) 16 16 status) 32 3 cls) 40 6 fn) 63 1 1)

/-- The Husk answers a packet itself (R658). -/
def Part.huskReject (p : Part) (c : Issue) (op status : Nat) : Part := (p.huskCapture op status (classCode c.cls) c.fn).reply c status 0

/-- The packet goes to its target in SYMBITE_FWD; its reply is written when the target's reply arrives (R665, R666). -/
def Part.forward (p : Part) (c : Issue) (d op : Nat) : Part :=
  let id := p.host.nextFwd
  let p := { p with host := { p.host with nextFwd := id + 1, fwds := p.host.fwds ++ [({ id, dev := d, issue := c } : Fwd)] } }
  p.sendCtrl d (.forward d id op c.cls c.fn)

/-- Command number `i` of R661 (R638, R648, R657, R658, R665–R667, R748, R787): its header and class are checked, it is forwarded, or performed by
`act`. Nothing answers before the Running stage; in Recovery only the ROM does. -/
def Part.command (p : Part) (c : Issue) (i : Nat) (act : Part → Part) : Part :=
  let op := opCodes.getD i 0
  if p.stage = 8 then
    if c.cls ≠ .b then p else if i = 0 || i = 44 then act p else p.reply c stBadState 0
  else if p.stage ≠ 7 || (p.fatal && !opFatal.contains i) then p
  else
    let p := if c.cls = .m || c.cls = .t then p else p.inc CMD_COUNTS_ACCEPTED
    if (c.cls = .m && c.fn ≠ 0) || (c.cls = .t && c.fn = 0) || (c.origin.isSome && c.remote.isSome) then p.reply c stBadHeader 0
    else if !p.admits i c.cls then p.huskReject c op stClassDenied
    else if (c.cls = .m || c.cls = .t) && c.origin.isNone && !p.attached && i ≠ 2 then p.reply c stBadState 0
    else match c.origin, c.remote with
      | some d, _ => if p.member d then act p else p.huskReject c op stClassDenied
      | none, some d =>
        if d.val = p.dev then act p
        else if !opForwards.contains i then p.huskReject c op stClassDenied
        else if !p.member d then p.reply c stTargetUnknown 0
        else p.forward c d op
      | none, none => act p

/-- The output of a command, cut to OUT_LEN, with DETAIL its length (R649). -/
def Part.output (p : Part) (c : Issue) (bs : List Byte) : Part :=
  let bs := bs.take c.outLen
  p.reply c stOK bs.length bs

/-- Bytes of a register. -/
def Part.regBytes (p : Part) (r : Reg) (i : Nat := 0) (j : Nat := 0) : List Byte := leBytes 8 (p.reg r i j).toNat

/-- NOP (R661). -/
def execNop (c : Issue) (s : State) : Host.Outcome State Fault Refusal := s.onAny fun p => p.command c 0 fun p => p.reply c stOK 0

/-- IDENTIFY (R661): GLOBAL_PART, GLOBAL_DEV, GLOBAL_INV. -/
def execIdentify (c : Issue) (s : State) : Host.Outcome State Fault Refusal :=
  s.onAny fun p => p.command c 1 fun p =>
    p.output c (p.regBytes reg_GLOBAL_PART ++ p.regBytes reg_GLOBAL_DEV ++ p.regBytes reg_GLOBAL_INV)

/-- DOMAIN_STATUS (R661): GLOBAL_MEMBERS, GLOBAL_DEAD, TICK_STATUS. -/
def execDomainStatus (c : Issue) (s : State) : Host.Outcome State Fault Refusal :=
  s.onPart fun p => p.command c 35 fun p =>
    p.output c (p.regBytes reg_GLOBAL_MEMBERS ++ p.regBytes reg_GLOBAL_DEAD ++ p.regBytes reg_TICK_STATUS)

/-- A class T command acts for its own function alone (R659). -/
def ownOnly (c : Issue) (fn : Nat) : Bool := c.cls ≠ .t || c.fn.val = fn

/-- A copy engine's check of `n` bytes at a local address for function `fn`: the fault code, 0 where it passes (R659, R369, R370, R371). -/
def Part.copyCheck (p : Part) (fn a n : Nat) (write : Bool) : Nat :=
  if n = 0 then 0
  else if !p.hasHome a || !p.hasHome (a + n - 1) then fAddrRange
  else
    let pages := (List.range ((a + n - 1) / 4096 - a / 4096 + 1)).map fun i => max a (4096 * (a / 4096 + i))
    if pages.all fun b => p.granted fn b 1 write then 0 else fAccessDenied


end Sys2Proof.Machine
end

