-- ==== Sys2Proof/Machine/CopyCmds.lean ====
section
/-! DEFINITION. Machine/CopyCmds.lean: the Symbite commands that copy engines perform on device memory (15): MEM_READ, MEM_WRITE, PRELOAD,
PMAP_UPDATE. -/

namespace Sys2Proof.Machine

/-- A copy engine reads the sectors of a range: its bytes with poisoned sectors as they stand, the sectors that were poisoned, and whether a dead
sector of a strict window was met (R392, R835). -/
def Part.copyFetch (p : Part) (a n : Nat) (alloc : Bool) : Part × List Byte × List Nat × Bool :=
  let secs := if n = 0 then [] else (List.range ((sectorOf (a + n - 1) - sectorOf a) / 64 + 1)).map fun i => sectorOf a + 64 * i
  let (p, bs, bad, dead) := secs.foldl (fun (q : Part × List Byte × List Nat × Bool) x =>
    let (p, bs, m) := q.1.readVia alloc x
    (p, q.2.1 ++ bs, if m = some .poison then q.2.2.1 ++ [x] else q.2.2.1, q.2.2.2 || m = some .deadRead)) (p, [], [], false)
  (p, Sys2Proof.Machine.slice bs (a - sectorOf a) n, bad, dead)

/-- MEM_READ (R659, R661, R835): OUT_LEN bytes; a poisoned sector is written as zero and the command ends with POISON_CONSUMED. -/
def execMemRead (c : Issue) (addr : Nat) (s : State) : Host.Outcome State Fault Refusal :=
  s.onPart fun p => p.command c 18 fun p =>
    let bad := p.copyCheck c.fn.val addr c.outLen false
    if 4096 < c.outLen then p.reply c stBadParam 0
    else if bad ≠ 0 then p.reply c bad 0
    else
      let (p, bs, pois, dead) := p.copyFetch addr c.outLen true
      if dead then p.reply c fDeadRead 0
      else
        let bs := bs.mapIdx fun i b => if pois.contains (sectorOf (addr + i)) then 0 else b
        p.reply c (if pois.isEmpty then stOK else fPoison) bs.length bs

/-- A copy engine writes whole sectors from `a`, one after the other, up to the first that is rejected: the part, and the fault code or 0
(R659, R661). -/
def Part.copyWrite (p : Part) (fn a : Nat) (bs : List Byte) : Part × Nat :=
  (List.range (bs.length / 64)).foldl (fun (q : Part × Nat) i =>
    let x := a + 64 * i
    if q.2 ≠ 0 then q
    else
      let code := q.1.copyCheck fn x 64 true
      if code ≠ 0 then (q.1, code) else (q.1.storeRange x (Sys2Proof.Machine.slice bs (64 * i) 64), 0)) (p, 0)

/-- MEM_WRITE (R414, R659, R661): whole sectors at a multiple of 64. What was written before a rejected address stays. -/
def execMemWrite (c : Issue) (addr : Nat) (data : List Byte) (s : State) : Host.Outcome State Fault Refusal :=
  s.onPart fun p => p.command c 19 fun p =>
    if addr % 64 ≠ 0 || data.length % 64 ≠ 0 || 4088 < data.length then p.reply c stBadParam 0
    else
      let (p, code) := p.copyWrite c.fn.val addr data
      p.reply c code 0

/-- The sectors of a range of pinned memory that a copy filled from poisoned sectors (R835). -/
def carried (src dst n : Nat) (bad : List Nat) : List Nat :=
  bad.foldl (fun l x =>
    let lo := max x src - src + dst
    let hi := min (x + 64) (src + n) - 1 - src + dst
    insNat (insNat l (sectorOf lo)) (sectorOf hi)) []

/-- PRELOAD (R405, R835): HBM into the aperture, both granted to the requester; poison is carried along. -/
def execPreload (c : Issue) (src dst len : Nat) (s : State) : Host.Outcome State Fault Refusal :=
  s.onPart fun p => p.command c 17 fun p =>
    let a := p.copyCheck c.fn.val src len false
    let b := p.copyCheck c.fn.val dst len true
    if len = 0 then p.reply c stOK 0
    else if !inHbm src || !inHbm (src + len - 1) || !p.inPin dst || !p.inPin (dst + len - 1) then p.reply c fAddrRange 0
    else if a ≠ 0 then p.reply c a 0
    else if b ≠ 0 then p.reply c b 0
    else
      let (p, bs, bad, dead) := p.copyFetch src len false
      if dead then p.reply c fDeadRead 0
      else
        let p := p.storeRange dst bs
        let p : Part := { p with poison := (carried src dst len bad).foldl insNat p.poison }
        p.reply c (if bad.isEmpty then stOK else fPoison) 0

/-- PMAP_UPDATE (R216, R450, R454, R661, R835): the entries are written and COUNT raised in one transaction, which waits for transactions that
claimed its lines. -/
def execPmapUpdate (c : Issue) (map first : Nat) (entries : List W64) (s : State) : Host.Outcome State Fault Refusal :=
  s.onPart fun p => p.command c 20 fun p =>
    let n := entries.length
    let lo := map + 64 + 8 * first
    let lines := if n = 0 then 0 else (lo + 8 * n - 1) / 256 - lo / 256 + 1
    let a := p.copyCheck c.fn.val map 64 true
    let b := p.copyCheck c.fn.val lo (8 * n) true
    if map % 64 ≠ 0 || !inCtl map || !inCtl (lo + 8 * n - 1) || 15 < lines || homeSlice map ≠ homeSlice (lo + 8 * n - 1) then
      p.reply c stBadParam 0
    else if a ≠ 0 then p.reply c a 0
    else if b ≠ 0 then p.reply c b 0
    else if p.claimed map 64 || p.claimed lo (8 * n) then p
    else
      let (p, hd, bad0) := p.readRange (lineOf map) 256
      let (p, _, bad1) := p.readRange (lineOf lo) (256 * lines)
      if !bad0.isEmpty || !bad1.isEmpty then p.reply c fPoison 0
      else
        let count := max (leAt hd (map % 256) 4) (first + n)
        let p := p.storeRange lo (entries.flatMap fun w => leBytes 8 w.toNat)
        (p.storeRange map (leBytes 4 count)).reply c stOK 0

end Sys2Proof.Machine
end

