-- ==== Sys2Proof/Machine/PowerOps.lean ====
section
/-! DEFINITION. Machine/PowerOps.lean: operating points, region clocks and rail targets, hint raises, the determinism-break log (17). Clocks are FREQ
codes, 1 to 15 (R708). -/

namespace Sys2Proof.Machine

def Part.modPower (p : Part) (f : Power → Power) : Part := { p with power := f p.power }
def Part.modRegion (p : Part) (r : Nat) (f : Region → Region) : Part := p.setRegion r (f (p.region r))
/-- Fixed-frequency mode is in force (R731). -/
def Part.fixed (p : Part) : Bool := p.rd PWR_STATUS_MODE = 1
/-- The logical tiles of a region (R19). -/
def regionTiles (r : Nat) : List Nat := (regionPods r).flatMap podTiles
/-- The regions of a compute die, and those of the dies of a tuber (R32). -/
def dieRegions (d : Nat) : List Nat := (List.range 4).map (4 * d + ·)

/-! ## Operating points (R708–R711, R745) -/

/-- The phase byte of an operating-point word: 0 step, 1 open, 2 guard. -/
def phaseByte (w phase : Nat) : Nat := w / 2 ^ (8 * phase) % 16

/-- A pod that runs open-phase work while the step phase is in force (R710). -/
def Part.overlapPod (p : Part) (q : Nat) : Bool := p.rd PD_STATUS_OWNER_KIND q = 1 && p.rd PD_STATUS_STATE q ≠ 0

/-- The preferred FREQ of a tile in a phase (R710): from the image for the tiles it names, else from the pod's PD_OPP. -/
def Part.prefer (p : Part) (phase t : Nat) : Nat :=
  let q := podOf t
  let named := (p.step.active.map fun i => inMask i.pods q).getD false
  if named then phaseByte (mget 0 p.power.tileOpp t) phase
  else phaseByte (mget 0xB0B0B p.power.podOpp q) (if phase = 0 && p.overlapPod q then 1 else phase)

/-- How a preference counts for the target (R711). -/
def prefClock (fixed : Bool) (f : Nat) : Nat := if fixed then (if f = 0 || 12 ≤ f then 11 else f) else if f = 0 then 15 else f

/-- Target clock of a region (R711). -/
def Part.regionTarget (p : Part) (phase r : Nat) : Nat := (regionTiles r).foldl (fun m t => max m (prefClock p.fixed (p.prefer phase t))) 1

/-! ## Voltages (R705–R707) -/

/-- Voltage a clock needs, in mV: the part's curve, nominal where it gives nothing (R705). -/
def nominalMv (f : Nat) : Nat := if 11 ≤ f then 780 + 20 * (f - 11) else 780 - 10 * (11 - f)
def Part.clockMv (p : Part) (f : Nat) : Nat := let v := mget 0 p.power.curve f; if v = 0 then nominalMv f else v

/-- The raise of a hint level (R714). -/
def Part.levelMv (p : Part) (l : Nat) : Nat := if l = 2 then p.rd PWR_HINT_CFG_HEAVY_MV else if l = 3 then p.rd PWR_HINT_CFG_PEAK_MV else 0
/-- The level in force on a pod: normal where no hint is (R714). -/
def Part.podLevel (p : Part) (q : Nat) : Nat := mget 1 p.power.raises q
/-- The largest raise in force on a region's pods (R706). -/
def Part.raiseMv (p : Part) (r : Nat) : Nat := (regionPods r).foldl (fun m q => max m (p.levelMv (p.podLevel q))) 0

/-- V(f) + TRIM + H of a region at clock `f`; TRIM counts in half millivolts. -/
def Part.needMv (p : Part) (r f : Nat) : Nat := p.clockMv f + (p.rd RGN_TRIM_TRIM_MV r + 1) / 2 + p.raiseMv r

/-- A rail voltage within 0.65–0.90 V and the sealed VCD ceiling (R706, R707); a ceiling of 0 is none. -/
def Part.clipMv (p : Part) (v : Nat) : Nat :=
  let c := p.rd HUSK_CEIL_VCD_MV
  max 650 (min (min 900 v) (if c = 0 then 900 else c))

/-- The voltage die `d` has, as its regulator last reported. -/
def Part.dieMv (p : Part) (d : Nat) : Nat := mget 780 p.power.railMv d

/-- The highest clock the die's present voltage carries in a region. -/
def Part.railCode (p : Part) (r : Nat) : Nat :=
  ((List.range 16).filter fun f => 1 ≤ f && p.clipMv (p.needMv r f) ≤ p.dieMv (r / 4)).foldl max 1

/-! ## Granted clock (R712, R722, R723) -/

def Part.target (p : Part) (r : Nat) : Nat := p.rd RGN_CLK_TARGET r
def Part.regionClock (p : Part) (r : Nat) : Nat := p.rd RGN_CLK_GRANTED r

/-- 1.75 GHz where boost is not permitted whatever the power is: fixed-frequency mode, or a sensor within 10 °C of T_HOT. -/
def Part.boostCap (p : Part) (r : Nat) : Nat := if p.fixed || (p.region r).warm then 11 else 15

/-- The clock the limits of R712 leave a region. -/
def Part.wanted (p : Part) (r : Nat) : Nat :=
  let g := p.region r
  let f := max 1 (min (min (p.target r) g.pkg) (min g.therm (p.boostCap r)))
  if g.crit then 1 else f

/-- CAUSE of RGN_CLK (R744). -/
def Part.clockCause (p : Part) (r f : Nat) : Nat :=
  let g := p.region r
  if p.target r ≤ f then 0
  else if g.crit || g.therm ≤ f then 2
  else if g.barred || g.noBoost then 4
  else if p.boostCap r ≤ f then 3
  else 1

/-- Whether a fast throttle feeds a region, and stretches it (R724, R725). -/
def feeds (rail r : Nat) : Bool := if rail < 12 then r / 4 = rail else r / 12 = rail - 12
def Part.throttled (p : Part) (r : Nat) : Bool := p.power.rails.any fun c => c.2.on && feeds c.1 r
def Part.throttleStretched (p : Part) (r : Nat) : Bool := p.power.rails.any fun c => c.2.on && c.2.stretch && feeds c.1 r

/-- CAP and STRETCH of a region (R720, R725, R727, R734). -/
def Part.showRegion (p : Part) (r : Nat) : Part :=
  let g := p.region r
  let cap := min p.power.caps (if g.crit || p.throttled r then 8 else 16)
  (p.wr RGN_CLK_CAP cap r).wr RGN_CLK_STRETCH (b2n (g.droop || p.throttleStretched r)) r

/-- A region's clock as its limits give it now; a rise waits for the rail (R705, R712). -/
def Part.regrant (p : Part) (r : Nat) : Part :=
  let want := p.wanted r
  let cur := p.regionClock r
  let f := if cur < want then max cur (min want (p.railCode r)) else want
  ((p.wr RGN_CLK_GRANTED f r).wr RGN_CLK_CAUSE (p.clockCause r f) r).showRegion r

/-- The target of a die's rail for a need of `v` mV: 0 once the die is retired (R706, R760). -/
def Part.railTarget (p : Part) (d v : Nat) : Nat := if p.repair.retiredDies.getLsbD d then 0 else p.clipMv v

/-- The target voltage of a die's rail (R705, R706): the highest need of its regions, at the clock a region has or is to rise to. -/
def Part.setRail (p : Part) (d : Nat) : Part :=
  let v := (dieRegions d).foldl (fun m r => max m (p.needMv r (max (p.regionClock r) (p.wanted r)))) 0
  p.wr PWR_RAIL1_TARGET_MV (p.railTarget d v) 0 d

/-- Clocks first, then the rails they need; BOOSTING and LIMITING. -/
def Part.settleClocks (p : Part) : Part :=
  let p := foldN 48 p fun r p => p.regrant r
  let p := foldN 12 p fun d p => p.setRail d
  let p := p.wr PWR_STATUS_BOOSTING (b2n ((List.range 48).any fun r => decide (11 < p.regionClock r)))
  p.wr PWR_STATUS_LIMITING (b2n ((List.range 48).any fun r => decide ((p.region r).pkg < p.target r) && decide (p.regionClock r < p.target r)))

/-- The operating points of a phase are applied (R23, R710, R711, R745). The package loop's clock follows a lower target down to 1.75 GHz, so that a boost
is stepped up again. -/
def Part.applyPhase (p : Part) (phase : Nat) : Part :=
  let p := p.modPower fun w => { w with podOpp := (List.range 192).foldl (fun m q => mput 0xB0B0B m q (p.reg reg_PD_OPP q).toNat) w.podOpp }
  let p := foldN 48 p fun r p =>
    let f := p.regionTarget phase r
    (p.wr RGN_CLK_TARGET f r).modRegion r fun g => { g with pkg := min g.pkg (max 11 f) }
  p.settleClocks

/-! ## Hints (R714, R715, R95) -/

/-- Every raise ends. -/
def Part.endHints (p : Part) : Part := p.modPower fun w => { w with raises := [] }

/-! ## Determinism breaks (R732, R743) -/

/-- Nanoseconds since the first event of log entry `i`, whose time holds 48 bits. -/
def Part.detAge (p : Part) (i : Nat) : Nat := (p.ns % 2 ^ 48 + 2 ^ 48 - p.rd PWR_DET0_TIME_NS 0 i) % 2 ^ 48

/-- The log entry into which an event of a cause in a region merges. -/
def Part.detEntry (p : Part) (r cause : Nat) : Option Nat :=
  (List.range 32).find? fun i => p.rd PWR_DET1_VALID 0 i = 1 && p.rd PWR_DET0_REGION 0 i = r && p.rd PWR_DET0_CAUSE 0 i = cause &&
    decide (p.detAge i ≤ p.rd PWR_DET1_DURATION_NS 0 i + 10000)

/-- A determinism break in fixed-frequency mode (R732): merged into an entry within 10 µs, or a new entry. -/
def Part.detBreak (p : Part) (r cause : Nat) : Part :=
  if !p.fixed then p
  else
    let p := p.set1 PWR_EVENTS_DET_BREAK
    match p.detEntry r cause with
    | some i =>
      let p := p.wr PWR_DET1_DURATION_NS (min (p.detAge i) (2 ^ 32 - 1)) 0 i
      p.wr PWR_DET1_MIN_FREQ (min (p.rd PWR_DET1_MIN_FREQ 0 i) (p.regionClock r)) 0 i
    | none =>
      let n := p.rd PWR_DET_STATUS_NEXT
      let p := p.setReg reg_PWR_DET0 (setB (setB (setB 0 0 48 p.ns) 48 6 r) 56 3 cause) 0 n
      let p := p.setReg reg_PWR_DET1 (setB (setB 0 32 4 (p.regionClock r)) 63 1 1) 0 n
      let p := (p.wr PWR_DET_STATUS_NEXT (n + 1)).inc PWR_DET_STATUS_ENTRIES
      if n = 31 then p.set1 PWR_DET_STATUS_WRAPPED else p

end Sys2Proof.Machine
end

