-- ==== Sys2Proof/Machine/Sched.lean ====
section
/-! DEFINITION. Machine/Sched.lean: the open-phase scheduler, preemption, save and restore, kernels launched and ended, pods granted, functions'
records and accounting (16). -/

namespace Sys2Proof.Machine

/-! ## Who may run where (R86, R683, R684) -/

/-- Tenant work may run on a pod now (R86, R100): no guard window, in the step phase only pods outside the image under
OPEN_OVERLAP, and not after the first guard window of a detachment (R637). -/
def Part.openPod (p : Part) (q : Nat) : Bool := !p.host.openStop && match p.tick.phase with
  | .guard => false
  | .opened => true
  | .step => p.rd TICK_CTL_OPEN_OVERLAP = 1 && !p.stepPods.contains q

/-- A pod can take work: not retired, no tile of it in reset (R754). -/
def Part.podFit (p : Part) (q : Nat) : Bool :=
  !inMask p.repair.retiredPods q && (podTiles q).all fun t => !(p.tile t).inReset

/-- The function's kernel saved on a pod. -/
def Part.savedOn (p : Part) (q fn : Nat) : Option SavedPod := p.sched.saved.find? fun v => v.pod = q && v.fn = fn

/-- The function's first accepted kernel still to start on a pod (R684). -/
def Part.waitingOn (p : Part) (q fn : Nat) : Option Nat := p.sched.order.find? fun k => match p.kernel k with
  | some x => x.fn = fn && !x.killed && inMask x.p.pods q && !inMask x.podsEnded q && (p.podRun q).kernel ≠ some k &&
      !(p.sched.saved.any fun v => v.pod = q && v.kernel = k)
  | none => false

/-- A function has work for a pod that it does not run now (R683). -/
def Part.runnable (p : Part) (q fn : Nat) : Bool :=
  (p.rd PD_GRANT_FN q).testBit fn && ((p.savedOn q fn).isSome || (p.waitingOn q fn).isSome)

/-- V of a function (R682). -/
def Part.vt (p : Part) (fn : Nat) : Nat := p.rd SCHED_FN_VT_V 0 fn

/-- Every pod is charged up to now. -/
def Part.chargeAll (p : Part) : Part := foldN 192 p fun q p => p.chargePod q

/-- The runnable function with the lowest V, the lowest number on a tie (R684). -/
def Part.nextFn (p : Part) (q : Nat) : Option Nat :=
  ((List.range 64).filter fun f => p.runnable q f).foldl (fun (b : Option Nat) f => match b with
    | none => some f
    | some g => if p.vt f < p.vt g then some f else some g) none

/-- POD_DISPATCH (R682, R684, R687, R690, R692): a free pod is given to the function with the lowest V at that time; its saved kernel is restored
first. -/
def execPodDispatch (q : PodId) (now : Nat) (s : State) : Host.Outcome State Fault Refusal :=
  s.onPart fun p =>
    if !p.openPod q || p.podState q ≠ 0 || p.rd PD_STATUS_OWNER_KIND q ≠ 0 || !p.podFit q then p
    else match (p.at now).chargeAll.nextFn q with
      | none => p
      | some f =>
        let p := p.at now
        match p.savedOn q f, (p.waitingOn q f).bind fun k => (p.kernel k).map fun x => (k, x) with
        | some v, _ =>
          ((p.setOwner q 1 f 3).setPodRun q { kernel := some v.kernel, since := p.now, charged := p.now, saveFrom := p.now }).chargeSaved f (p.now - v.at_)
        | none, some (k, x) =>
          let p := foldL (podTiles q) p fun t p => p.startTile t x.p.l1Size (.kernel k)
          (p.setOwner q 1 f 1).setPodRun q { kernel := some k, since := p.now, charged := p.now }
        | none, none => p

/-! ## Preemption (R685–R692) -/

/-- The groups of a tile stop at their instruction boundary: open transactions abort with PREEMPTED, reservations are lost (R172, R440, R687). -/
def Part.stopTile (p : Part) (t : Nat) : Part :=
  let gs := (p.tile t).groups.map (·.1)
  let p := foldL gs p fun g p =>
    let p := match (p.group t g).tx.map fun x => x.notice with
      | some (some (code, line)) => p.txAbort t g code 0 line
      | some none => p.txAbort t g 10 0 0
      | none => p
    p.dropRsv t g
  p.modTile t fun x => { x with stopping := true }

/-- A pod is preempted: its kernel's tiles stop and the save begins. -/
def Part.preempt (p : Part) (q : Nat) : Part :=
  match (p.podRun q).kernel with
  | none => p
  | some k =>
    if p.podState q ≠ 1 then p
    else
      let p := p.chargePod q
      let p := foldL (podTiles q) p fun t p => if (p.tile t).work = .kernel k then p.stopTile t else p
      (p.wr PD_STATUS_STATE 2 q).setPodRun q { p.podRun q with saveFrom := p.now }

/-- Every pod that runs open-phase work is preempted at the guard start (R87). -/
def Part.preemptAll (p : Part) : Part := foldN 192 p fun q p => p.preempt q

/-- The pod must give way for share (R685). -/
def Part.shareOver (p : Part) (q : Nat) : Bool :=
  let f := p.rd PD_STATUS_OWNER_FN q
  p.podState q = 1 && p.rd PD_STATUS_OWNER_KIND q = 1 && p.rd SCHED_CFG_SHARE_PREEMPT = 1 &&
  decide ((p.podRun q).since + us (max 100 (p.rd SCHED_CFG_QUANTUM_US)) ≤ p.now) &&
  (List.range 64).any fun g => g ≠ f && p.runnable q g && decide (p.vt g < p.vt f)

/-- The tiles of a pod that run kernel `k`. -/
def Part.podWork (p : Part) (q k : Nat) : List Nat := (podTiles q).filter fun t => (p.tile t).work = .kernel k

/-- A save slot of a function is freed; PD_SAVED shows it (R688, R702). -/
def Part.freeSlot (p : Part) (v : SavedPod) : Part :=
  let p : Part := { p with sched := { p.sched with saved := p.sched.saved.filter fun w => !(w.pod = v.pod && w.kernel = v.kernel) } }
  let p := p.wr SCHED_FN_CFG_SLOTS_USED (p.rd SCHED_FN_CFG_SLOTS_USED 0 v.fn - 1) 0 v.fn
  p.wr PD_SAVED_FN ((p.reg reg_PD_SAVED v.pod) &&& ~~~((1 : W64) <<< v.fn)).toNat v.pod

/-- Whether a store-buffer entry of a pod is held by a remote device that does not accept writes (R691). -/
def Part.saveStalled (p : Part) (q : Nat) : Bool :=
  (podTiles q).any fun t => (p.tile t).sb.any fun e => match e.dev with
    | some d => !(p.deadDev d || ((p.portFor d).map fun i => p.canSend i true).getD false)
    | none => false

/-- What a save keeps of a tile (R687, R688): all but L1, which is empty, and what has drained. -/
def Tile.kept (x : Tile) : Tile := { x with l1 := [], l1Ptr := [], l1Data := [], sb := [], stopping := false, seq := .none }

/-- The save of a pod is over: its state lies in the lowest free save slot, or is discarded when the kernel was killed; the pod is free. -/
def Part.saveDone (p : Part) (q k : Nat) : Part :=
  let ts := p.podWork q k
  let saved := ts.map fun t => (t, (p.tile t).kept)
  let d := p.now - (p.podRun q).saveFrom
  let p := foldL ts p fun t p => p.modTile t fun x => { x.clearWork with l1 := [], l1Ptr := [], l1Data := [], arr := [], acc := [], ops := [] }
  let p := (p.freePod q).wr PD_STATUS_LAST_SAVE_NS (min (d / 10) (2 ^ 24 - 1)) q
  match p.kernel k with
  | none => p
  | some x =>
    let f := x.fn
    let p := (p.chargeLost f d).inc SCHED_FN_PREEMPTS_V 1 0 f
    if x.killed then p.podDone k q
    else
      let slot := ((List.range 192).find? fun n => !(p.sched.saved.any fun v => v.fn = f && v.slot = n)).getD 0
      let p : Part := { p with sched := { p.sched with saved := p.sched.saved ++ [({ pod := q, fn := f, kernel := k, slot, at_ := p.now, tiles := saved } : SavedPod)] } }
      (p.inc SCHED_FN_CFG_SLOTS_USED 1 0 f).wr PD_SAVED_FN ((p.reg reg_PD_SAVED q) ||| ((1 : W64) <<< f)).toNat q

/-- SAVE_COMPLETE (R336, R687–R692): store buffers have drained, dirty L1 sectors are written back and every access of the pod has its reply;
before that the save goes on as far as it can. -/
def execSaveComplete (q : PodId) (now : Nat) (s : State) : Host.Outcome State Fault Refusal :=
  s.onPart fun p => match (p.podRun q).kernel with
    | none => p
    | some k =>
      if p.podState q ≠ 2 then p
      else
        let ts := p.podWork q k
        let p := p.at now
        let p := if p.saveStalled q then p.set1 SCHED_EVENTS_SAVE_STALL else p
        if ts.any fun t => (p.tile t).seq = .ending then p
        else
          let (p, ok) := ts.foldl (fun (a : Part × Bool) t => let (p, ok) := a.1.drainTile t .save; (p, a.2 && ok)) (p, true)
          if ok && !(p.net.any fun r => ts.contains r.tile) then p.saveDone q k else p

/-- RESTORE_COMPLETE (R335, R690): the saved tiles return with an empty L1 and the kernel's split; a restore that ends outside the open phase is
preempted at once (R87, R692). -/
def execRestoreComplete (q : PodId) (now : Nat) (s : State) : Host.Outcome State Fault Refusal :=
  s.onPart fun p => match (p.podRun q).kernel with
    | none => p
    | some k =>
      if p.podState q ≠ 3 then p
      else
        let p := p.at now
        match p.sched.saved.find? fun v => v.pod = q.val && v.kernel = k, p.kernel k with
        | some v, some x =>
          let p := foldL v.tiles p fun c p =>
            let old := p.tile c.1
            let p := p.setTile c.1 { c.2 with unacked := old.unacked, lastEcc := old.lastEcc, gated := false, gating := false }
            (p.wr TL_ARRAY_L1_SIZE x.p.l1Size c.1).wr TL_ARRAY_SCRATCH_4K (scratchOf x.p.l1Size / 4096) c.1
          let p := (p.freeSlot v).chargeLost x.fn (p.now - (p.podRun q).saveFrom)
          let p := (p.wr PD_STATUS_STATE 1 q).setPodRun q { kernel := some k, since := p.now, charged := p.now }
          if p.openPod q then p else p.preempt q
        | _, x =>
          let p := (x.map fun x => p.chargeLost x.fn (p.now - (p.podRun q).saveFrom)).getD p
          (p.freePod q).podDone k q

/-! ## Kernels (R138, R328, R659, R664, R683, R693) -/

/-- Footprint of a kernel on a pod, in KiB (R693). -/
def footprint (l : LaunchParams) : Nat :=
  let b := residentBlocks l.groups l.nReg l.localBytes (scratchOf l.l1Size)
  16 * (12 + b * l.groups * granulesOf l.nReg + b * ((l.localBytes + 4095) / 4096 * 4) + 64)

/-- A function that becomes runnable has its V raised to the lowest V of the functions that run (R683). -/
def Part.raiseV (p : Part) (fn : Nat) : Part :=
  let p := p.chargeAll
  let run := ((List.range 192).filter fun q => p.podState q = 1 && p.rd PD_STATUS_OWNER_KIND q = 1).map fun q => p.vt (p.rd PD_STATUS_OWNER_FN q)
  match run with
  | [] => p
  | v :: r => p.wr SCHED_FN_VT_V (max (p.vt fn) (r.foldl min v)) 0 fn

/-- Whether a function has any kernel accepted and not ended. -/
def Part.hasKernel (p : Part) (fn : Nat) : Bool := p.sched.order.any fun k => ((p.kernel k).map fun x => decide (x.fn = fn)).getD false

/-- LAUNCH (R138, R328, R659, R664, R683, R693): the kernel waits for its pods. -/
def execLaunch (c : Issue) (l : LaunchParams) (s : State) : Host.Outcome State Fault Refusal :=
  s.onPart fun p => p.command c 30 fun p =>
    let f := c.fn.val
    let a := p.copyCheck f l.code 8 false
    let b := p.copyCheck f l.argPtr 1 false
    if l.blocks = 0 || l.nReg = 0 || 256 < l.nReg || l.groups = 0 || 16 < l.groups || 4 < l.l1Size || l.code % 8 ≠ 0 || l.pods = 0 ||
        (maskPods l.pods).any (fun q => !(p.rd PD_GRANT_FN q).testBit f) then p.reply c stBadParam 0
    else if a ≠ 0 then p.reply c a 0
    else if b ≠ 0 then p.reply c b 0
    else if residentBlocks l.groups l.nReg l.localBytes (scratchOf l.l1Size) = 0 || p.rd SCHED_FN_CFG_SAVE_SLOT_KIB 0 f < footprint l then
      p.reply c stLaunchResources 0
    else
      let p := if p.hasKernel f then p else p.raiseV f
      let at_ := ((p.host.started.find? (isRec f c.sq c.gen)).map (·.at_)).getD p.now
      let k := p.sched.nextKernel
      let p := p.setKernel k (some { fn := f, p := l, issue := c, accepted := at_ })
      { p with sched := { p.sched with nextKernel := k + 1, order := p.sched.order ++ [k] } }

/-- KERNEL_KILL (R661, R686): the launch named by its TAG and queue ends with ABORTED. -/
def execKernelKill (c : Issue) (tag : W32) (q : Nat) (s : State) : Host.Outcome State Fault Refusal :=
  s.onPart fun p => p.command c 31 fun p =>
    match p.sched.order.find? fun k => ((p.kernel k).map fun x => x.fn = c.fn.val && x.issue.tag = tag && x.issue.sq = q && !x.killed).getD false with
    | none => p.reply c stBadParam 0
    | some k => (p.killKernel k).reply c stOK 0

/-! ## Functions (R674–R679, R695) -/

/-- Number of pods granted to a function. -/
def Part.grantCount (p : Part) (fn : Nat) : Nat := ((List.range 192).filter fun q => (p.rd PD_GRANT_FN q).testBit fn).length

/-- A pod is granted to, or taken from, a function. -/
def Part.setGrant (p : Part) (q fn : Nat) (on : Bool) : Part :=
  let g := p.reg reg_PD_GRANT q
  p.setReg reg_PD_GRANT (if on then g ||| ((1 : W64) <<< fn) else g &&& ~~~((1 : W64) <<< fn)) q

/-- Two half-open ranges meet. -/
def overlap (a n b m : Nat) : Bool := a < b + m && b < a + n

/-- A window that can serve as a save area: PINNED, KEEP, granted to nobody (R675). -/
def Part.saveWinOk (p : Part) (w : Nat) : Bool :=
  w < 64 && p.winValid w && !p.closing.contains w && p.winType w = 2 && p.rd LLC_WIN_ATTR_KEEP 0 w = 1 && p.winGrant w = 0

/-- VF_CREATE (R674, R675). -/
def execVfCreate (c : Issue) (v : VfParams) (s : State) : Host.Outcome State Fault Refusal :=
  s.onPart fun p => p.command c 7 fun p =>
    let f := v.vf.val
    let others := (List.range 64).filter fun g => g ≠ f && p.hasRecord g
    if f = 0 || p.rd UCI_STATUS_NUM_VF < f || p.hasRecord f || v.share = 0 || 65535 < v.share || 4095 < v.seqFirst || 4096 < v.seqCount ||
        4096 < v.seqFirst + v.seqCount || 2 ^ 32 ≤ v.pageQuota || 192 < v.saveSlots || 65535 < v.saveSlotKib || v.saveSlotKib % 4 ≠ 0 ||
        !p.saveWinOk v.saveWin || p.winSize v.saveWin < v.saveSlots * v.saveSlotKib * 1024 then p.reply c stBadParam 0
    else if others.any (fun g => overlap v.seqFirst v.seqCount (p.rd SCHED_FN_SEQ_SEQ_FIRST 0 g) (p.rd SCHED_FN_SEQ_SEQ_COUNT 0 g)) ||
        others.any (fun g => p.rd SCHED_FN_CFG_SAVE_WIN 0 g = v.saveWin) || v.saveSlots < (maskPods v.pods).length ||
        (maskPods v.pods).any (inMask p.repair.retiredPods) then p.reply c stNoResource 0
    else
      let p := p.setReg reg_SCHED_FN_CFG (setB (setB (setB (setB 0 0 16 v.share) 16 6 v.saveWin) 24 8 v.saveSlots) 32 16 v.saveSlotKib) 0 f
      let p := p.setReg reg_SCHED_FN_SEQ (setB (setB (setB 0 0 12 v.seqFirst) 16 13 v.seqCount) 32 32 v.pageQuota) 0 f
      (foldL (maskPods v.pods) p fun q p => p.setGrant q f true).reply c stOK 0

/-- VF_SET_SHARE: a new share from the next decision; V stays (R675, 16 coincidences). -/
def execVfSetShare (c : Issue) (vf : FnId) (share : Nat) (s : State) : Host.Outcome State Fault Refusal :=
  s.onPart fun p => p.command c 9 fun p =>
    if !p.hasRecord vf || share = 0 || 65535 < share then p.reply c stBadParam 0
    else
      let p := p.chargeAll
      let p : Part := { p with sched := { p.sched with frac := mput 0 p.sched.frac (16 * vf.val + 8) (mget 0 p.sched.frac (16 * vf.val + 8) * share / p.share vf) } }
      (p.wr SCHED_FN_CFG_SHARE share 0 vf).reply c stOK 0

/-- The registers of the six counters of R694, in its order. -/
def accountRegs : List Reg :=
  [reg_SCHED_FN_ENGINE, reg_SCHED_FN_WAIT, reg_SCHED_FN_COMMANDS, reg_SCHED_FN_PREEMPTS, reg_SCHED_FN_LOST, reg_SCHED_FN_SAVED]

/-- QUERY_ACCOUNT (R694, R695). -/
def execQueryAccount (c : Issue) (fn : FnId) (clear : Bool) (s : State) : Host.Outcome State Fault Refusal :=
  s.onPart fun p => p.command c 10 fun p =>
    if !ownOnly c fn then p.reply c stBadParam 0
    else
      let p := p.chargeAll
      let bs := accountRegs.flatMap (fun r => p.regBytes r 0 fn) ++ p.regBytes reg_SCHED_FN_VT 0 fn ++ leBytes 8 p.ns
      let p := if clear then foldL accountRegs p fun r p => p.setReg r 0 0 fn else p
      p.output c bs

/-- A pod taken from a function ends its kernels there (R680): the part and the kernels that must end. -/
def Part.ungrant (p : Part) (q fn : Nat) : Part × List Nat :=
  let ks := p.sched.order.filter fun k => match p.kernel k with
    | some x => x.fn = fn && ((p.podRun q).kernel = some k || p.sched.saved.any fun v => v.pod = q && v.kernel = k)
    | none => false
  let p := foldL ks p fun k p => (p.killKernel k).set1 SCHED_EVENTS_ABORTED
  (p.setGrant q fn false, ks)

/-- A pod is named by the active or the staged image. -/
def Part.imagePod (p : Part) (q : Nat) : Bool :=
  [p.step.active, p.step.staged].any fun i => (i.map fun x => inMask x.pods q).getD false

/-- POD_ASSIGN (R679, R680): a function without a record has no save slot, so it is granted no pod. -/
def execPodAssign (c : Issue) (pods : PodMask) (fn : FnId) (a : PodAction) (s : State) : Host.Outcome State Fault Refusal :=
  s.onPart fun p => p.command c 11 fun p =>
    let qs := maskPods pods
    match a with
    | .grant =>
      let new := qs.filter fun q => !(p.rd PD_GRANT_FN q).testBit fn
      if p.rd SCHED_FN_CFG_SAVE_SLOTS 0 fn < p.grantCount fn + new.length || qs.any (inMask p.repair.retiredPods) then p.reply c stNoResource 0
      else (foldL qs p fun q p => p.setGrant q fn true).reply c stOK 0
    | .ungrant =>
      let (p, ks) := qs.foldl (fun (x : Part × List Nat) q => let (p, l) := x.1.ungrant q fn; (p, x.2 ++ l)) (p, [])
      if ks.any fun k => (p.kernel k).isSome then { p with sched := { p.sched with waits := p.sched.waits ++ [{ issue := c, kernels := ks }] } }
      else p.reply c stOK 0
    | .join =>
      if qs.any (inMask p.repair.retiredPods) then p.reply c stNoResource 0
      else (foldL qs p fun q p => p.wr PD_CFG_STEP_POOL 1 q).reply c stOK 0
    | .leave =>
      if qs.any p.imagePod then p.reply c stBadState 0 else (foldL qs p fun q p => p.wr PD_CFG_STEP_POOL 0 q).reply c stOK 0

end Sys2Proof.Machine
end

