-- ==== Sys2Proof/Machine/Power.lean ====
section
/-! DEFINITION. Machine/Power.lean: fast throttle, droop, the package loop, hints, rails, calibration, temperatures, ageing; POWER_LIMIT, POWER_MODE,
SENSOR_READ (17). -/

namespace Sys2Proof.Machine

/-! ## Fast throttle (R724, R725, R805) -/

def Part.rail (p : Part) (n : Nat) : RailThr := mget {} p.power.rails n
def Part.setRailThr (p : Part) (n : Nat) (x : RailThr) : Part := p.modPower fun w => { w with rails := mput {} w.rails n x }

/-- The regions a rail feeds. -/
def railRegions (n : Nat) : List Nat := (List.range 48).filter fun r => feeds n r

/-- A throttle of a rail begins: every region it feeds is throttled. -/
def Part.throttle (p : Part) (n : Nat) (now : Nat) : Part :=
  let p := p.inc PWR_RAIL1_ALERTS 1 0 n
  if (p.rail n).on then p.setRailThr n { p.rail n with beyond := some ((p.rail n).beyond.getD now), low := none }
  else
    let p := (p.setRailThr n { on := true, beyond := some now }).set1 PWR_EVENTS_FAST_THROTTLE
    foldL (railRegions n) p fun r p => ((p.inc RGN_EVENTS_COUNT_THROTTLES 1 r).detBreak r 2).showRegion r

/-- One rail's current against its limit: over it a throttle begins, below 90 % of it the time to the throttle's end runs. -/
def Part.railCheck (p : Part) (n dA now : Nat) : Part :=
  let limit := p.rd PWR_RAIL0_LIMIT_DA 0 n
  let x := p.rail n
  if limit < dA then (if x.beyond.isSome then p else p.throttle n now)
  else if !x.on then p
  else p.setRailThr n { x with beyond := none, low := if 10 * dA < 9 * limit then some (x.low.getD now) else none }

/-- FAST_THROTTLE_CHECK (R724): the currents implied by the activity estimate, in 0.1 A. -/
def execFastThrottleCheck (currents : List (Fin 16 × Nat)) (now : Nat) (s : State) : Host.Outcome State Fault Refusal :=
  s.onPart fun p => let p := p.at now; foldL currents p fun c p => p.railCheck c.1 c.2 p.now

/-- VR_ALERT (R724, R805): a tuber's regulator alert throttles as its VTB rail does. -/
def execVrAlert (t : TuberId) (now : Nat) (s : State) : Host.Outcome State Fault Refusal :=
  s.onPart fun p => let p := p.at now; p.throttle (12 + t.val) p.now

/-- THROTTLE_STRETCH (R725): a rail still over its limit 1 µs later also stretches cycles. -/
def execThrottleStretch (rail : Fin 16) (now : Nat) (s : State) : Host.Outcome State Fault Refusal :=
  s.onPart fun p => match (p.rail rail).beyond with
    | none => p
    | some t =>
      if max now p.now < t + us 1 then p
      else
        let p := (p.at now).setRailThr rail { p.rail rail with stretch := true }
        foldL (railRegions rail) p fun r p => p.showRegion r

/-- THROTTLE_END (R725): the rail has stayed below 90 % of its limit for 10 µs. -/
def execThrottleEnd (rail : Fin 16) (now : Nat) (s : State) : Host.Outcome State Fault Refusal :=
  s.onPart fun p => match (p.rail rail).low with
    | none => p
    | some t =>
      if max now p.now < t + us 10 then p
      else
        let p := (p.at now).setRailThr rail {}
        foldL (railRegions rail) p fun r p => p.showRegion r

/-! ## Droop (R723, R727) -/

/-- DROOP_TRIP (R723, R727, R732): the region stretches; the eighth trip within 1 ms bars it from boost for 10 ms. -/
def execDroopTrip (r : RegionId) (now : Nat) (s : State) : Host.Outcome State Fault Refusal :=
  s.onPart fun p =>
    let p := p.at now
    let g := p.region r
    let trips := (g.trips.filter fun t => p.now < t + ms 1) ++ [p.now]
    let bar := decide (8 ≤ trips.length)
    let p := p.setRegion r { g with trips := if bar then [] else trips, droop := true, barred := g.barred || bar,
                                    barEnd := if bar then p.now + ms 10 else g.barEnd }
    (((p.set1 PWR_EVENTS_DROOP).inc RGN_EVENTS_COUNT_DROOPS 1 r).detBreak r 1).showRegion r

/-- DROOP_RECOVERY (R727). -/
def execDroopRecovery (r : RegionId) (now : Nat) (s : State) : Host.Outcome State Fault Refusal :=
  s.onPart fun p => ((p.at now).modRegion r fun g => { g with droop := false }).showRegion r

/-- BOOST_BAR_END (R723). -/
def execBoostBarEnd (r : RegionId) (now : Nat) (s : State) : Host.Outcome State Fault Refusal :=
  s.onPart fun p => if (p.region r).barred && (p.region r).barEnd ≤ max now p.now then (p.at now).modRegion r fun g => { g with barred := false } else p

/-! ## Package loop (R712, R720–R723) -/

/-- Hint level of a region: the heaviest of its pods. -/
def Part.regionLevel (p : Part) (r : Nat) : Nat := (regionPods r).foldl (fun m q => max m (p.podLevel q)) 0

/-- The regions in the loop's order: lightest hinted first, within a level as given, highest estimate first. -/
def Part.lightFirst (p : Part) (order : List Nat) : List Nat := (List.range 4).flatMap fun l => order.filter fun r => p.regionLevel r = l

/-- The loop lowers up to 8 regions by one step; with every region at 1.25 GHz it lowers the issue caps by one sixteenth. -/
def Part.packageLower (p : Part) (order : List Nat) : Part :=
  let rs := ((p.lightFirst order).filter fun r => 1 < p.regionClock r).take 8
  let p := p.set1 PWR_EVENTS_LIMIT
  if (List.range 48).all fun r => p.regionClock r ≤ 1 then p.modPower fun w => { w with caps := max 4 (w.caps - 1) }
  else foldL rs p fun r p =>
    let f := p.regionClock r - 1
    let p := (p.modRegion r fun g => { g with pkg := f }).wr RGN_CLK_GRANTED f r
    if f < 11 then p.detBreak r 3 else p

/-- A region that may rise: below its target, not barred, no sensor within 10 °C of T_HOT, in normal mode above 1.75 GHz. -/
def Part.mayRise (p : Part) (r : Nat) : Bool :=
  let g := p.region r
  g.pkg < min (p.target r) (p.boostCap r) && p.regionClock r = min g.pkg (p.target r) && !(11 ≤ g.pkg && (g.barred || g.noBoost)) &&
  decide (p.clipMv (p.needMv r (g.pkg + 1)) ≤ p.dieMv (r / 4))

/-- The loop raises up to 8 regions by one step toward their targets, caps first. -/
def Part.packageRaise (p : Part) (order : List Nat) : Part :=
  if p.power.caps < 16 then p.modPower fun w => { w with caps := w.caps + 1 }
  else foldL ((order.filter p.mayRise).take 8) p fun r p => p.modRegion r fun g => { g with pkg := g.pkg + 1 }

/-- The rails of regions that wait to rise are raised first (R705). -/
def Part.raiseRails (p : Part) (permitted : Bool) : Part :=
  foldN 12 p fun d p =>
    let v := (dieRegions d).foldl (fun m r =>
      let g := p.region r
      let f := if permitted && !g.barred && !g.noBoost then min (min (p.target r) (p.boostCap r)) g.therm else max (p.regionClock r) (p.wanted r)
      max m (p.needMv r (max f (p.regionClock r)))) 0
    p.wr PWR_RAIL1_TARGET_MV (p.railTarget d v) 0 d

/-- PACKAGE_LOOP (R39, R705, R720–R723): `estW` is the mean calibrated package estimate A, `riseW` the rise the hints foretell, `order` the regions by
estimated power. -/
def execPackageLoop (estW riseW : Nat) (order : List RegionId) (now : Nat) (s : State) : Host.Outcome State Fault Refusal :=
  s.onPart fun p =>
    let p := (p.at now).wr PWR_STATUS_EST_W (min estW 4095)
    let limit := p.rd PWR_CFG_LIMIT_W
    let total := estW + riseW
    let permitted := decide (total + p.rd PWR_CFG_BOOST_MARGIN_W ≤ limit)
    let order := order.map (·.val)
    let p := foldN 48 p fun r p =>
      let g := p.region r
      if (g.barred || g.noBoost) && 11 < g.pkg then p.setRegion r { g with pkg := g.pkg - 1 } else p
    let p := if limit < total then p.packageLower order else if permitted then p.packageRaise order else p
    p.settleClocks.raiseRails permitted

/-- RAIL_SETTLED (R705): the regulator reports the new voltage. -/
def execRailSettled (rail : Fin 16) (mv : Nat) (s : State) : Host.Outcome State Fault Refusal :=
  s.onPart fun p => (p.modPower fun w => { w with railMv := mput 780 w.railMv rail mv }).settleClocks

/-! ## Hints (R94, R95, R714–R716) -/

/-- The hint set of the phase in force. -/
def Part.hintSet (p : Part) : List W64 := match p.tick.phase with
  | .step => if p.step.started && !p.step.complete then p.step.hints else []
  | .opened => p.power.hints
  | .guard => []

/-- HINT_RAISE (R26, R95, R706, R715): a hint of the set in force on a pod begins or ends. -/
def execHintRaise (q : PodId) (level : Fin 4) (begins : Bool) (s : State) : Host.Outcome State Fault Refusal :=
  s.onPart fun p =>
    if begins && !(p.hintSet.any fun h => getB h 0 8 = q.val && getB h 8 2 = level.val) then p
    else (p.modPower fun w => { w with raises := mput 1 w.raises q (if begins then level.val else 1) }).settleClocks

/-- An entry of R94 that is not admitted. -/
def badHint (h : W64) : Bool := 191 < getB h 0 8 || getB h 10 2 ≠ 0 || getB h 52 12 ≠ 0

/-- HINT (R94, R716): the open-phase hint set from the next boundary. -/
def execHint (c : Issue) (entries : List W64) (s : State) : Host.Outcome State Fault Refusal :=
  s.onPart fun p => p.command c 29 fun p =>
    if 511 < entries.length || entries.any badHint then p.reply c stBadParam 0
    else (p.modPower fun w => { w with hintsNext := some entries }).reply c stOK 0

/-! ## Calibration (R718, R726) -/

/-- The calibrated gain of R718 before clipping, in units of 2⁻¹⁴, from the old gain `g`, measured power `m` and estimate `e`: rounded one way or
the other (`up`) where it is not exact; the spec gives no rounding. -/
def calGain (g m e : Nat) (up : Bool) : Nat :=
  let n := g * (15 * e + m)
  let d := 16 * e
  n / d + (if up && n % d ≠ 0 then 1 else 0)

/-- A rail's gain is updated; with no estimate the quotient does not exist and the gain is a free value in its range. -/
def Part.calibrate (p : Part) (n mv dA est : Nat) : Part :=
  let g := if est = 0 then 0x3000 + p.free.toNat % 0x2001 else calGain (p.rd PWR_RAIL1_CAL_GAIN 0 n) (mv * dA) est (p.free.getLsbD 0)
  let p := p.nextFree
  let clip := max 0x3000 (min 0x5000 g)
  let p := p.wr PWR_RAIL1_CAL_GAIN clip 0 n
  if clip = g then p else p.set1 PWR_EVENTS_CAL_RANGE

/-- CALIBRATION (R704, R718, R726): of each rail its voltage in mV, its current in 0.1 A, and the mean estimate in 0.1 mW; the measured package power. -/
def execCalibration (readings : List (RailId × Nat × Nat × Nat)) (measW : Nat) (now : Nat) (s : State) : Host.Outcome State Fault Refusal :=
  s.onPart fun p =>
    let p := (p.at now).wr PWR_STATUS_MEAS_W (min measW 4095)
    foldL readings p fun c p =>
      let (n, mv, dA, est) := (c.1.val, c.2.1, c.2.2.1, c.2.2.2)
      let p := (p.wr PWR_RAIL0_VOLT_MV (min mv 4095) 0 n).wr PWR_RAIL0_CURR_DA (min dA 4095) 0 n
      if n < 16 then p.calibrate n mv dA est
      else if p.rd PWR_RAIL0_LIMIT_DA 0 n < dA then
        ((p.set1 PWR_EVENTS_RAIL_ALARM).inc PWR_RAIL1_ALERTS 1 0 n).log 2 5 15 p.dev 0 0 n
      else p

/-! ## Temperatures (R734, R735) -/

/-- The readings of a region's own sensors. -/
def ownSensors (rt : List (RegionId × Nat × Nat)) (r : Nat) : List Nat := (rt.filter fun c => c.1.val = r).flatMap fun c => [c.2.1, c.2.2]

/-- The readings of a region's own sensors and of its tuber's. -/
def sensorsOf (rt : List (RegionId × Nat × Nat)) (tt : List (TuberId × List Nat)) (r : Nat) : List Nat :=
  ownSensors rt r ++ (tt.filter fun c => c.1.val = r / 12).flatMap (·.2)

/-- A sensor of a region within 10 °C of T_HOT bars its boost (R722). -/
def Part.warmStep (p : Part) (r : Nat) (own : List Nat) : Part :=
  if own.isEmpty then p else p.modRegion r fun g => { g with warm := own.any fun x => p.rd PWR_THERM_T_HOT ≤ x + 10 }

/-- The readings that put a region at its T_CRIT action: of its die's regions and of its tuber. -/
def critSensors (rt : List (RegionId × Nat × Nat)) (tt : List (TuberId × List Nat)) (r : Nat) : List Nat :=
  (rt.filter fun c => c.1.val / 4 = r / 4).flatMap (fun c => [c.2.1, c.2.2]) ++ (tt.filter fun c => c.1.val = r / 12).flatMap (·.2)

/-- The thermal loop's step of a region: down while a sensor is at or above T_HOT, up once in 1 ms below T_HOT − 3 °C. -/
def Part.thermStep (p : Part) (r : Nat) (l : List Nat) : Part :=
  let hot := p.rd PWR_THERM_T_HOT
  let g := p.region r
  if l.isEmpty then p
  else if l.any fun x => hot ≤ x then
    let p := p.set1 PWR_EVENTS_THERM_HOT
    let f := min g.therm (p.regionClock r)
    if 1 < f then (((p.setRegion r { g with therm := f - 1, coolSince := none }).regrant r).inc RGN_EVENTS_COUNT_THERM_STEPS 1 r).detBreak r 4
    else p.setRegion r { g with coolSince := none }
  else if l.all fun x => x + 3 < hot then
    match g.coolSince with
    | none => p.setRegion r { g with coolSince := some p.now }
    | some t => if t + ms 1 ≤ p.now && g.therm < 15 then p.setRegion r { g with therm := g.therm + 1, coolSince := some p.now } else p.setRegion r g
  else p.setRegion r { g with coolSince := none }

/-- The T_CRIT action of a region. -/
def Part.critStep (p : Part) (r : Nat) (l : List Nat) : Part :=
  let crit := p.rd PWR_THERM_T_CRIT
  if l.any fun x => crit ≤ x then
    let p' := (p.modRegion r fun g => { g with crit := true, therm := 1 }).regrant r
    if (p.region r).crit then p' else (p'.inc RGN_EVENTS_COUNT_THERM_STEPS 1 r).detBreak r 4
  else if !l.isEmpty && l.all fun x => x + 5 < crit then p.modRegion r fun g => { g with crit := false }
  else p

/-- THERM_ALERT_N is asserted while some region is at its T_CRIT action. -/
def Part.thermAlert (p : Part) : Part :=
  let on := (List.range 48).any fun r => (p.region r).crit
  { p with mgmt := { p.mgmt with thermAlertN := !on } }

/-- A thermal trip (R735, R748, R819): THERMTRIP_N is asserted and latched, clocks, Bellith and UCIe transmitters stop, the stacks refresh themselves. -/
def Part.thermTrip (p : Part) : Part :=
  let p := p.log 3 5 15 p.dev 0 15 0
  let p := foldN 18 p fun i p => p.wr BLK_STATUS_STATE 0 i
  let p := (p.wr GLOBAL_DEV_JOINED 0).wr GLOBAL_ELOG_STATUS_FATAL 1
  { p with mgmt := { p.mgmt with thermTripN := false, alive := false }, step := { p.step with running := false } }

/-- THERMAL_READ (R734, R735): the two sensors of the regions and the four of the tubers, in °C. -/
def execThermalRead (regionTemps : List (RegionId × Nat × Nat)) (tuberTemps : List (TuberId × List Nat)) (now : Nat) (s : State) :
    Host.Outcome State Fault Refusal :=
  s.onPart fun p =>
    let p := p.at now
    let all := regionTemps.flatMap (fun c => [c.2.1, c.2.2]) ++ tuberTemps.flatMap (·.2)
    let p := p.wr PWR_STATUS_HOTTEST_C (min 255 (all.foldl max 0))
    let p := foldL regionTemps p fun c p => (p.wr RGN_PWR_TEMP0_C (min 255 c.2.1) c.1).wr RGN_PWR_TEMP1_C (min 255 c.2.2) c.1
    let was := (List.range 48).filter fun r => (p.region r).crit
    let p := foldN 48 p fun r p => ((p.warmStep r (ownSensors regionTemps r)).thermStep r (sensorsOf regionTemps tuberTemps r)).critStep r (critSensors regionTemps tuberTemps r)
    let new := (List.range 12).filter fun d => (dieRegions d).any fun r => (p.region r).crit && !was.contains r
    let p := foldL new p fun d p => (p.set1 PWR_EVENTS_THERM_CRIT).log 2 4 4 d 0 0 (p.rd PWR_STATUS_HOTTEST_C)
    let p := p.settleClocks.thermAlert
    if all.any fun x => p.rd PWR_THERM_T_TRIP ≤ x then p.thermTrip else p

/-! ## Commands (R707, R721, R731, R739, R661) -/

/-- POWER_LIMIT (R707, R721, R739): WINDOW_MS outside 1–10 acts as the nearer limit; a limit above the ceiling acts as the ceiling. -/
def execPowerLimit (c : Issue) (watts windowMs : Nat) (s : State) : Host.Outcome State Fault Refusal :=
  s.onPart fun p => p.command c 36 fun p =>
    (((p.wr PWR_CFG_LIMIT_W (min watts 4095)).wr PWR_CFG_WINDOW_MS (clamp 1 10 windowMs)).ceil PWR_CFG_LIMIT_W (p.rd HUSK_CEIL_LIMIT_W)).reply c stOK 0

/-- POWER_MODE (R731). -/
def execPowerMode (c : Issue) (fixed : Bool) (s : State) : Host.Outcome State Fault Refusal :=
  s.onPart fun p => p.command c 37 fun p =>
    let was := p.rd PWR_CFG_MODE = 1
    ((p.wr PWR_CFG_MODE (b2n fixed)).modeWritten was).reply c stOK 0

/-- SENSOR_READ (R661, R748): the temperatures of the regions and stacks, then the telemetry of the rails, as their registers show them. -/
def execSensorRead (c : Issue) (s : State) : Host.Outcome State Fault Refusal :=
  s.onAny fun p => p.command c 38 fun p =>
    p.output c ((List.range 48).flatMap (fun r => p.regBytes reg_RGN_PWR r) ++ (List.range 24).flatMap (fun h => p.regBytes reg_HBM_STATUS h) ++
      (List.range 33).flatMap fun n => p.regBytes reg_PWR_RAIL0 0 n)

end Sys2Proof.Machine
end

