-- ==== Sys2Proof/Machine/Windows.lean ====
section
/-! DEFINITION. Machine/Windows.lean: windows created, modified and destroyed, ways locked and powered, the cleans these need, a slice that loses both
copies of a tag (08, 12, 16, 18). -/

namespace Sys2Proof.Machine

/-! ## Checks (R372–R374, R551, R676, R677, R828, R831) -/

/-- What a window is, or would be. -/
structure Win where
  base : Nat
  size : Nat
  attr : W64
  ways : Nat
  grant : W64
  backing : Nat

def Win.type (w : Win) : Nat := getB w.attr 0 2
def Win.cls (w : Win) : Nat := getB w.attr 2 2
def Win.codec (w : Win) : Nat := getB w.attr 4 3
def Win.shared (w : Win) : Bool := w.attr.getLsbD 8

/-- A window as its registers show it. -/
def Part.winOf (p : Part) (n : Nat) : Win :=
  { base := p.winBase n, size := p.winSize n, attr := p.reg reg_LLC_WIN_ATTR 0 n, ways := p.winWays n, grant := p.reg reg_LLC_WIN_GRANT 0 n,
    backing := p.winBacking n }

/-- The other valid windows. -/
def Part.others (p : Part) (n : Nat) : List Nat := (List.range 64).filter fun m => m ≠ n && p.winValid m

/-- Home section of a control-window address (R49, R51). -/
def sectionOf (a : Nat) : Nat := a / 0x400000 % 256

/-- The placement and features of a type (R372). -/
def Part.placed (p : Part) (w : Win) : Bool := match w.type with
  | 0 => w.base % 65536 = 0 && w.size % 65536 = 0 && p.hbmIn (w.base + w.size - 1)
  | 1 => w.base % 4096 = 0 && inCtl w.base && inCtl (w.base + w.size - 1) && sectionOf w.base = sectionOf (w.base + w.size - 1) &&
      w.codec = 0 && !w.shared
  | 2 => w.base % 65536 = 0 && w.size % 65536 = 0 && p.inPin w.base && p.inPin (w.base + w.size - 1) && w.ways = 0 && w.codec = 0 && !w.shared
  | _ => false

/-- Two windows can hold lines in one way of one slice (R373). -/
def meet (v w : Win) : Bool :=
  (v.ways &&& w.ways) ≠ 0 && v.type ≠ 2 && w.type ≠ 2 && !(v.type = 1 && w.type = 1 && sectionOf v.base ≠ sectionOf w.base)

/-- The classes of two windows may share ways (R373). -/
def shareOk (v w : Win) : Bool := (v.cls == 2) == (w.cls == 2)

/-- Ways that a lock in progress takes (R402). -/
def Part.lockTo (p : Part) : Nat := p.cleans.foldl (fun l c => match c.kind with | .lock n => max l n | _ => l) p.lockL
def lockedMask (l : Nat) : Nat := 65536 - 2 ^ (16 - l)

/-- A way of a mask is powered on a tuber, not going down, `gone` left out (R374, R407). -/
def Part.poweredOn (p : Part) (tuber ways gone : Nat) : Bool := (List.range 16).any fun w =>
  ways.testBit w && !gone.testBit w && (p.rd LLC_STATUS_WAYS_POWERED (64 * tuber)).testBit w &&
  !(p.cleans.any fun c => match c.kind with | .powerDown t g => t = tuber && g = w / 4 | _ => false)

/-- The tubers in whose slices a window holds lines. -/
def Win.tubers (w : Win) : List Nat := match w.type with
  | 0 => [0, 1, 2, 3]
  | 1 => [sectionOf w.base / 64]
  | _ => []

/-- The range of a CONTROL window's backing store collides (R828). -/
def Part.backingBad (p : Part) (n : Nat) (w : Win) : Bool :=
  !p.hbmIn (w.backing + w.size - 1) || (p.others n).any fun m =>
    overlap w.backing w.size (p.winBase m) (p.winSize m) || (p.winType m = 1 && overlap w.backing w.size (p.winBacking m) (p.winSize m))

/-- The conditions of R374 for window `n`, and those of R551 and R828 when it is new. -/
def Part.conflict (p : Part) (n : Nat) (w : Win) (new : Bool) : Bool :=
  let inShed := (decide (w.type = 0) && overlap w.base w.size 0x8A00000000 0x600000000) ||
    (decide (w.type = 1) && overlap w.backing w.size 0x8A00000000 0x600000000)
  3 ≤ w.type || 3 ≤ w.cls || 6 ≤ w.codec || !p.placed w ||
  ((p.others n).any fun m => overlap w.base w.size (p.winBase m) (p.winSize m) ||
    (p.winType m = 1 && overlap w.base w.size (p.winBacking m) (p.winSize m)) || (meet w (p.winOf m) && !shareOk w (p.winOf m))) ||
  (w.type ≠ 2 && (w.ways = 0 || (w.ways &&& lockedMask p.lockTo) ≠ 0 || w.tubers.any fun t => !p.poweredOn t w.ways 0)) ||
  (new && ((p.others n).length = 64 || (w.type = 1 && p.backingBad n w) ||
    (inShed && (p.rd HBM_CFG_KEEP_SHED = 1 || p.rd HBM_MIGRATE_STATE = 2))))

/-- Granting the window would pass a function's page quota (R676). -/
def Part.overQuota (p : Part) (n : Nat) (w : Win) : Bool :=
  !w.shared && (List.range 64).any fun f =>
    let held := ((p.others n).filter fun m => (p.winGrant m).testBit f && !p.winShared m).foldl (fun t m => t + p.winSize m) 0
    f ≠ 0 && p.hasRecord f && w.grant.getLsbD f && decide (65536 * p.rd SCHED_FN_SEQ_PAGE_QUOTA 0 f < held + w.size)

/-- A golden-source word (R562). -/
def goldKind (g : W64) : Nat := getB g 52 2

/-- A parameter of WINDOW_CREATE outside its range (R831). -/
def badWin (v : WinParams) : Bool :=
  let control := getB v.attr 0 2 = 1
  v.size4k = 0 || 2 ^ 36 ≤ v.size4k || 2 ^ 48 ≤ v.base || 2 ^ 12 ≤ v.attr.toNat || 2 ^ 16 ≤ v.ways || 2 ^ 60 ≤ v.gold0.toNat || 2 ^ 60 ≤ v.gold1.toNat ||
  (goldKind v.gold0 = 3 && !control) || goldKind v.gold1 = 3 ||
  ([v.gold0, v.gold1].any fun g => (goldKind g = 1 || goldKind g = 2) && !v.attr.getLsbD 8) ||
  (control && (goldKind v.gold0 ≠ 3 || goldKind v.gold1 ≠ 0 || getB v.gold0 0 12 ≠ 0))

/-! ## Window commands -/

/-- WINDOW_CREATE (R371–R374, R538, R676, R828, R831). DETAIL is the window's number. -/
def execWindowCreate (c : Issue) (v : WinParams) (s : State) : Host.Outcome State Fault Refusal :=
  s.onPart fun p => p.command c 12 fun p =>
    let w : Win := { base := v.base, size := 4096 * v.size4k, attr := v.attr, ways := v.ways, grant := v.grant, backing := getB v.gold0 0 52 }
    if badWin v then p.reply c stBadParam 0
    else if p.conflict 64 w true then p.reply c stWindowConflict 0
    else if p.overQuota 64 w then p.reply c stNoResource 0
    else
      let n := ((List.range 64).find? fun n => !p.winValid n).getD 0
      let p := p.setReg reg_LLC_WIN_BASE (setB (BitVec.ofNat 64 v.base) 63 1 1) 0 n
      let p := p.setReg reg_LLC_WIN_SIZE (setB (BitVec.ofNat 64 v.size4k) 48 16 v.ways) 0 n
      let p := p.setReg reg_LLC_WIN_ATTR v.attr 0 n
      let p := p.setReg reg_LLC_WIN_GRANT v.grant 0 n
      let p := p.setReg reg_HBM_GOLD_SRC0 v.gold0 0 n
      let p := p.setReg reg_HBM_GOLD_SRC1 v.gold1 0 n
      (p.setReg reg_HBM_GOLD_STATE 0 0 n).reply c stOK n

/-- A command waits for a clean; its token numbers it (R833). -/
def Part.startClean (p : Part) (k : CleanKind) (c : Option Issue) : Part :=
  { p with cleans := p.cleans ++ [{ token := p.nextId, kind := k, issue := c }], nextId := p.nextId + 1 }

/-- WINDOW_MODIFY (R374, R375, R676, R677, R831): the new settings hold at once; ways lost are cleaned before the reply. -/
def execWindowModify (c : Issue) (w : Nat) (ways : Nat) (grant : W64) (strict : Bool) (codec : Nat) (s : State) : Host.Outcome State Fault Refusal :=
  s.onPart fun p => p.command c 13 fun p =>
    let old := p.winOf w
    let new : Win := { old with ways, grant, attr := setB (setB old.attr 4 3 codec) 7 1 (b2n strict) }
    if 63 < w || !p.winValid w || 2 ^ 16 ≤ ways || 8 ≤ codec then p.reply c stBadParam 0
    else if p.closing.contains w ||
        (grant ≠ 0 && (List.range 64).any fun f => p.hasRecord f && p.rd SCHED_FN_CFG_SAVE_WIN 0 f = w) then p.reply c stBadState 0
    else if p.conflict w new false then p.reply c stWindowConflict 0
    else if p.overQuota w new then p.reply c stNoResource 0
    else
      let p := p.wr LLC_WIN_SIZE_WAYS ways 0 w
      let p := p.setReg reg_LLC_WIN_ATTR new.attr 0 w
      let p := p.setReg reg_LLC_WIN_GRANT grant 0 w
      let lost := old.ways &&& (65535 - ways)
      if lost = 0 then p.reply c stOK 0 else p.startClean (.modify w lost) (some c)

/-- The window takes no new accesses; its lines will be cleaned (R376). -/
def Part.startDestroy (p : Part) (w : Nat) (c : Option Issue) : Part :=
  ({ p with closing := insNat p.closing w } : Part).startClean (.destroy w) c

/-- WINDOW_DESTROY (R376, R377, R677, R831). -/
def execWindowDestroy (c : Issue) (w : Nat) (s : State) : Host.Outcome State Fault Refusal :=
  s.onPart fun p => p.command c 14 fun p =>
    if 63 < w || !p.winValid w then p.reply c stBadParam 0
    else if p.closing.contains w || (List.range 64).any (fun f => p.hasRecord f && p.rd SCHED_FN_CFG_SAVE_WIN 0 f = w) then p.reply c stBadState 0
    else p.startDestroy w (some c)

/-! ## Ways -/

/-- A PINNED window lies in a range of the aperture (R403). -/
def Part.pinnedIn (p : Part) (a n : Nat) : Bool := (p.others 64).any fun m => p.winType m = 2 && overlap a n (p.winBase m) (p.winSize m)

/-- WAYS_LOCKED of every slice (R401). -/
def Part.setLocked (p : Part) (l : Nat) : Part := foldN 256 p fun s p => p.wr LLC_STATUS_WAYS_LOCKED (lockedMask l) s

/-- Bytes of a range of the pinned buffer become zero: no poison, no dead line is left there. -/
def Part.zeroPin (p : Part) (a n : Nat) : Part :=
  let here (x : Nat) : Bool := decide (a ≤ x) && decide (x < a + n)
  { p with mem := p.mem.filter fun c => !here c.1, poison := p.poison.filter fun x => !here x, dead := p.dead.filter fun x => !here x }

/-- A lower lock count: the top of the aperture goes, its ways are Invalid (R403). -/
def Part.unlock (p : Part) (l : Nat) : Part :=
  (p.zeroPin (pinBase + l * 0x4000000) ((p.lockL - l) * 0x4000000)).setLocked l

/-- WAYS_LOCK (R401–R403, R759). -/
def execWaysLock (c : Issue) (l : Nat) (s : State) : Host.Outcome State Fault Refusal :=
  s.onPart fun p => p.command c 15 fun p =>
    let old := p.lockL
    let added := lockedMask l &&& (65535 - lockedMask old)
    if 12 < l then p.reply c stBadParam 0
    else if l = old then p.reply c stOK 0
    else if !p.repair.sliceMap.isEmpty || p.lockTo ≠ old then p.reply c stWaysInUse 0
    else if l < old then
      if p.pinnedIn (pinBase + l * 0x4000000) ((old - l) * 0x4000000) then p.reply c stWaysInUse 0 else (p.unlock l).reply c stOK 0
    else if (p.others 64).any (fun m => p.winType m ≠ 2 && (p.winWays m &&& added) ≠ 0) ||
        (List.range 16).any (fun w => added.testBit w && (List.range 4).any fun t => !p.poweredOn t (2 ^ w) 0) then p.reply c stWaysInUse 0
    else p.startClean (.lock l) (some c)

/-- WAYS_POWER (R406–R409). -/
def execWaysPower (c : Issue) (tuber : TuberId) (group : Fin 4) (on : Bool) (s : State) : Host.Outcome State Fault Refusal :=
  s.onPart fun p => p.command c 16 fun p =>
    let m := 15 * 2 ^ (4 * group.val)
    let up := (p.rd LLC_STATUS_WAYS_POWERED (64 * tuber.val)) &&& m = m
    let busy := p.cleans.any fun k => k.kind = .powerDown tuber group || k.kind = .powerUp tuber group
    if group = 0 && !on then p.reply c stBadParam 0
    else if busy then p.reply c stWaysInUse 0
    else if on then if up then p.reply c stOK 0 else p.startClean (.powerUp tuber group) (some c)
    else if !up then p.reply c stOK 0
    else if (lockedMask p.lockTo &&& m) ≠ 0 ||
        (p.others 64).any (fun n => (p.winOf n).tubers.contains tuber.val && !p.poweredOn tuber (p.winWays n) m) then p.reply c stWaysInUse 0
    else p.startClean (.powerDown tuber group) (some c)

/-- WAY_GROUP_AVAILABLE (R409): a group powered up has every way Invalid. -/
def execWayGroupAvailable (t : TuberId) (g : Fin 4) (s : State) : Host.Outcome State Fault Refusal :=
  s.onPart fun p => match p.cleans.find? fun k => k.kind = .powerUp t g with
    | none => p
    | some k =>
      let p : Part := { p with cleans := p.cleans.filter fun x => x.token ≠ k.token }
      let p := foldN 64 p fun i p => p.wr LLC_STATUS_WAYS_POWERED (p.rd LLC_STATUS_WAYS_POWERED (64 * t.val + i) ||| 15 * 2 ^ (4 * g.val)) (64 * t.val + i)
      match k.issue with
      | some c => p.reply c stOK 0
      | none => p

/-! ## Cleans (R375, R376, R402, R408, R415, R832, R833) -/

/-- Every line of a slice in the ways that `f` names, by way and window, is written back and its way invalidated; transactions that claimed a
cleaned line abort with CONFLICT. -/
def Part.cleanSlice (p : Part) (s : Nat) (f : Nat → Nat → Bool) : Part :=
  foldL (p.slice s).ways p fun c p =>
    if f (c.1 % 16) c.2.win && (c.2.kind = .line || c.2.kind = .pair) then
      (foldL c.2.lines p fun l p => p.abortClaims s l 1 fun _ => true).evict s (c.1 / 16) (c.1 % 16)
    else p

/-- A reduction pin or a miss entry still holds such a way (R415). -/
def Part.cleanHeld (p : Part) (s : Nat) (f : Nat → Nat → Bool) : Bool :=
  let z := p.slice s
  z.entries.any (fun e => f e.way e.win) || z.pins.any fun e => f e.way (z.way e.set e.way).win

/-- The slices a clean concerns, and which of their ways it cleans. -/
def CleanKind.scope : CleanKind → List Nat × (Nat → Nat → Bool)
  | .modify w lost => (List.range 256, fun v n => n = w && lost.testBit v)
  | .destroy w => (List.range 256, fun _ n => n = w)
  | .lock l => (List.range 256, fun v _ => decide (16 - l ≤ v))
  | .powerDown t g => ((List.range 64).map (64 * t + ·), fun v _ => v / 4 = g)
  | .powerUp _ _ => ([], fun _ _ => false)
  | .remap s => ([s], fun _ _ => true)

/-- An access to a window that passed its check is still to be performed (R832). -/
def Part.accessLeft (p : Part) (w : Nat) : Bool :=
  (p.net.any fun q => q.dev.isNone && q.state ≠ .performed && p.covers w q.sector) ||
  p.tiles.any fun c => c.2.sb.any fun e => e.dev.isNone && p.covers w e.sector

/-- The slice of the same tuber to which the fewest slices are remapped (R757). -/
def Part.remapTarget (p : Part) (s : Nat) : Nat :=
  let n (r : Nat) : Nat := (p.repair.sliceMap.filter fun c => c.2 = r).length
  let cand := ((List.range 64).map (64 * (s / 64) + ·)).filter fun r => r ≠ s && p.rd LLC_STATUS_STATE r = 0
  (cand.foldl (fun (b : Option Nat) r => match b with
    | none => some r
    | some q => if n r < n q then some r else some q) none).getD s

/-- What follows the clean. -/
def Part.cleaned (p : Part) (k : Clean) : Part :=
  let p := match k.kind with
    | .modify _ _ => p
    | .destroy w =>
      let p : Part := { p with closing := delNat p.closing w
                               hbm := { p.hbm with repairs := p.hbm.repairs.filter fun r => r.win ≠ w, waiting := p.hbm.waiting.filter fun r => r.2.1 ≠ w
                                                   failed := p.hbm.failed.filter fun r => r.1 ≠ w } }
      p.wr LLC_WIN_BASE_VALID 0 0 w
    | .lock l => (p.zeroPin p.pinEnd ((l - p.lockL) * 0x4000000)).setLocked l
    | .powerDown t g => foldN 64 p fun i p =>
        let s := 64 * t + i
        p.wr LLC_STATUS_WAYS_POWERED (p.rd LLC_STATUS_WAYS_POWERED s &&& (65535 - 15 * 2 ^ (4 * g))) s
    | .powerUp _ _ => p
    | .remap s => { p with repair := { p.repair with pending := p.repair.pending ++ [.slice s (p.remapTarget s) k.issue] } }
  let p := match k.kind with
    | .remap _ => p
    | _ => foldL k.kind.scope.1 p fun s p => p.set1 LLC_EVENTS_CLEAN_DONE s
  match k.kind, k.issue with
  | .remap _, _ => p
  | _, some c => p.reply c stOK 0
  | _, none => p

/-- CLEAN_DONE (R375, R376, R402, R408, R415, R757, R832, R833): every slice concerned has cleaned, once no pin, no miss entry and, for a window
destroyed, no accepted access is left. -/
def execCleanDone (token : Nat) (s : State) : Host.Outcome State Fault Refusal :=
  s.onPart fun p => match p.cleans.find? fun k => k.token = token with
    | none => p
    | some k =>
      let (ss, f) := k.kind.scope
      let left := match k.kind with
        | .destroy w => p.accessLeft w
        | .powerUp _ _ => true
        | _ => false
      if left || ss.any fun i => p.cleanHeld i f then p
      else
        let p := foldL ss p fun i p => p.cleanSlice i f
        ({ p with cleans := p.cleans.filter fun x => x.token ≠ token } : Part).cleaned k

/-- TAG_LOSS (R413, R757): both tag copies of a way fail. Its line is lost, the slice cleans its other ways and will be remapped. -/
def execTagLoss (sl : SliceId) (set : Fin 1024) (way : Fin 16) (now : Nat) (s : State) : Host.Outcome State Fault Refusal :=
  s.onPart fun p =>
    let x := (p.slice sl).way set way
    if x.kind = .off || p.rd LLC_STATUS_STATE sl = 2 then p
    else
      let p := p.at now
      let p := foldL x.lines p fun l p => ((p.abortClaims sl l 1 fun _ => true).dropDirty (p.phys l)).settleMarks (p.phys l)
      let p := p.modSlice sl fun z => { z.putWay set way { kind := .off } with rsvs := z.rsvs.filter fun r => !x.lines.contains r.line }
      let p := p.log 2 5 6 sl 0 16 (set.val + 65536 * way.val)
      let p := if p.step.running then { p with step := { p.step with faulted := true } } else p
      if p.rd LLC_STATUS_STATE sl = 1 then p else (p.wr LLC_STATUS_STATE 1 sl).startClean (.remap sl) none

end Sys2Proof.Machine
end

