-- ==== Sys2Proof/Machine/Image.lean ====
section
/-! DEFINITION. Machine/Image.lean: step images: loading, the checks of STEP_ACTIVATE, what the part takes from an active image; halting and resuming
stepping; the sequence commands (02, 06, 15). The image's bytes stay where STEP_LOAD found them (R662) and are read there. -/

namespace Sys2Proof.Machine

/-! ## The image's bytes (R88–R94, R709, R840) -/

/-- Sections in the order of R88. -/
def secHops := 0
def secStreams := 1
def secWeights := 2
def secSeq := 3
def secPoints := 4
def secHints := 5

def Image.off (im : Image) (i : Nat) : Nat := (im.sections.getD i (0, 0)).1
def Image.size (im : Image) (i : Nat) : Nat := (im.sections.getD i (0, 0)).2

/-- Little-endian number of `n` bytes at offset `o` of section `i`. -/
def Part.imgAt (p : Part) (im : Image) (i o n : Nat) : Nat := leNat (p.bytesAt (im.addr + im.off i + o) n)

/-- A 192-bit pod map from its 24 bytes. -/
def podsOf (bs : List Byte) : PodMask := BitVec.ofNat 192 (leNat bs)

/-- The header of an image as STEP_LOAD records it. -/
def imageOf (addr : Nat) (bs : List Byte) : Image :=
  { addr, len := bs.length, id := leAt bs 4 4, keep := (leAt bs 2 2).testBit 0, pods := podsOf (slice bs 8 24), schedSlots := leAt bs 0x24 2,
    hintCount := leAt bs 0x26 2, sections := (List.range 6).map fun i => (leAt bs (0x28 + 16 * i) 8, leAt bs (0x30 + 16 * i) 8) }

/-- DIGEST is SHA-256 over the whole image with its own field read as zero (R88, R96). -/
def digestOk (bs : List Byte) : Bool :=
  decide (0xA8 ≤ bs.length) && slice bs 0x88 32 = sha256 (bs.take 0x88 ++ List.replicate 32 0 ++ bs.drop 0xA8)

/-- The logical tiles of the pods of an image, in increasing index. -/
def Image.tiles (im : Image) : List Nat := (List.range 3072).filter fun t => inMask im.pods (podOf t)

/-- Offset of a tile's stream in the instruction-stream section; 0 for none (R89). -/
def Part.streamOff (p : Part) (im : Image) (t : Nat) : Nat := p.imgAt im secStreams (8 * t) 4
/-- The stream header of R89. -/
def Part.streamHdr (p : Part) (im : Image) (t : Nat) : W64 := BitVec.ofNat 64 (p.imgAt im secStreams (p.streamOff im t) 8)
/-- Address of a stream's first instruction. -/
def Part.streamPc (p : Part) (im : Image) (t : Nat) : Nat := im.addr + im.off secStreams + p.streamOff im t + 8

def hdrL1 (h : W64) : Nat := getB h 0 3
def hdrGroups (h : W64) : Nat := getB h 8 5
def hdrRegs (h : W64) : Nat := getB h 16 9
def hdrLocal (h : W64) : Nat := 4096 * getB h 32 8

/-- A router's schedule (R88, R311): SCHED_SLOTS slots, the routers in tile order (DEDUCED, log 24). -/
def Part.schedule (p : Part) (im : Image) (t : Nat) : List W64 :=
  (List.range im.schedSlots).map fun i => BitVec.ofNat 64 (p.imgAt im secHops (8 * (im.schedSlots * t + i)) 8)

/-- Number of weight-stream descriptors, and the 32 bytes of one as a number (R91). -/
def Part.weightCount (p : Part) (im : Image) : Nat := p.imgAt im secWeights 0 8
def Part.weightWord (p : Part) (im : Image) (i : Nat) : Nat := p.imgAt im secWeights (8 + 32 * i) 32

/-- The fields of R91. -/
def wdesc (w : Nat) : WDesc :=
  { src := fld w 0 48, tile := fld w 48 12, ch := fld w 60 1, prefetch := w.testBit 61, lines := fld w 64 16, dst := fld w 96 19, gate := fld w 128 16 }

/-- The descriptors of a tile and channel, in the order of the section (R92). -/
def Part.tileWeights (p : Part) (im : Image) (t ch : Nat) : List WDesc :=
  (((List.range (p.weightCount im)).map fun i => wdesc (p.weightWord im i))).filter fun d => d.tile = t && d.ch = ch

def Part.hintAt (p : Part) (im : Image) (i : Nat) : W64 := BitVec.ofNat 64 (p.imgAt im secHints (8 * i) 8)
/-- Operating-point record number `i` (R709). -/
def Part.pointAt (p : Part) (im : Image) (i : Nat) : Nat := p.imgAt im secPoints (4 * i) 4
/-- Address of the committed bank, and the number of initial entries (R840). -/
def Part.seqAddr (p : Part) (im : Image) : Nat := p.imgAt im secSeq 0 8
def Image.seqCount (im : Image) : Nat := (im.size secSeq - 8) / 32
def Part.seqEntry (p : Part) (im : Image) (i : Nat) : Nat := p.imgAt im secSeq (8 + 32 * i) 32

/-! ## STEP_LOAD (R96, R662, R835) -/

/-- A pending STEP_ACTIVATE ends with ABORTED (R663). -/
def Part.abortActivate (p : Part) : Part := match p.step.activate with
  | none => p
  | some c => ({ p with step := { p.step with activate := none } } : Part).reply c stAborted 0

/-- The staging banks hold nothing. -/
def Part.clearStaging (p : Part) : Part := { p with routers := p.routers.map fun c => (c.1, { c.2 with staging := none }) }

/-- The staged image is `x` from now on. -/
def Part.stage_ (p : Part) (x : Option Image) : Part :=
  let p := p.abortActivate.clearStaging
  let id := match x with
    | some im => im.id
    | none => 0
  ({ p with step := { p.step with staged := x } } : Part).wr TICK_IMAGE_STAGED_ID id

/-- STEP_LOAD (R96, R370, R662, R835): the image must lie in one HBM window granted to function 0. An image that is rejected or carries poison leaves
nothing staged. -/
def execStepLoad (c : Issue) (addr len : Nat) (s : State) : Host.Outcome State Fault Refusal :=
  s.onPart fun p => p.command c 23 fun p =>
    if len ≠ 0 && (!p.hbmIn addr || !p.hbmIn (addr + len - 1)) then p.reply c fAddrRange 0
    else if len ≠ 0 && !p.granted 0 addr len false then p.reply c fAccessDenied 0
    else
      let (p, bs, bad, dead) := p.copyFetch addr len true
      if dead then p.reply c fDeadRead 0
      else if !bad.isEmpty then (p.stage_ none).reply c fPoison 0
      else if !digestOk bs then (p.stage_ none).reply c stImageDigest 0
      else if leAt bs 0 2 ≠ 1 || leAt bs 4 4 = 0 || len < 256 then (p.stage_ none).reply c stImageInvalid 0
      else (p.stage_ (some (imageOf addr bs))).reply c stOK (leAt bs 4 4)

/-! ## STEP_ACTIVATE (R90, R93, R94, R97, R292, R329, R663, R709, R755, R840) -/

/-- The header's own checks (R88, R97). -/
def Part.badHeader (p : Part) (im : Image) : Bool :=
  2 ≤ leNat (p.bytesAt (im.addr + 2) 2) || leNat (p.bytesAt (im.addr + 0xA8) 0x58) ≠ 0 || im.schedSlots = 0 || 4096 < im.schedSlots ||
  1024 < im.hintCount || im.sections.any (fun s => im.len < s.1 + s.2) || (maskPods im.pods).any (fun q => p.rd PD_CFG_STEP_POOL q = 0) ||
  im.size secHops < 3072 * 8 * im.schedSlots

/-- A stream or its index entry fails R89, R90 or R329. -/
def Part.badStream (p : Part) (im : Image) (t : Nat) : Bool :=
  let o := p.streamOff im t
  let h := p.streamHdr im t
  p.imgAt im secStreams (8 * t + 4) 4 ≠ 0 ||
  (o ≠ 0 && (!inMask im.pods (podOf t) || im.size secStreams < o + 8 || getB h 3 5 ≠ 0 || getB h 13 3 ≠ 0 || getB h 25 7 ≠ 0 || getB h 40 24 ≠ 0 ||
    hdrGroups h = 0 || 16 < hdrGroups h || hdrRegs h = 0 || 256 < hdrRegs h || 4 < hdrL1 h))

/-- A weight-stream descriptor fails R93. -/
def Part.badWeight (p : Part) (im : Image) (w : Nat) : Bool :=
  let d := wdesc w
  fld w 62 2 ≠ 0 || fld w 80 16 ≠ 0 || fld w 115 13 ≠ 0 || fld w 144 112 ≠ 0 || d.lines = 0 || d.src % 256 ≠ 0 || d.dst % 256 ≠ 0 || 3071 < d.tile ||
  !inMask im.pods (podOf d.tile) || p.streamOff im d.tile = 0 || scratchOf (hdrL1 (p.streamHdr im d.tile)) < d.dst + 256 * d.lines

/-- A reserved byte or bit of an operating-point record is set (R709). -/
def badPoint (w : Nat) : Bool := fld w 4 4 ≠ 0 || fld w 12 4 ≠ 0 || fld w 20 12 ≠ 0

/-- An initial sequence-table entry fails R840. -/
def badSeqEntry (w : Nat) : Bool :=
  fld w 4 4 ≠ 0 || fld w 14 18 ≠ 0 || fld w 112 16 ≠ 0 || fld w 176 16 ≠ 0 || fld w 240 16 ≠ 0 || (w.testBit 0 && fld w 8 6 = 0)

/-- Both banks lie in one CONTROL window granted to function 0 (R840). -/
def Part.seqWindow (p : Part) (a : Nat) : Bool := match p.winOpen a with
  | none => false
  | some w => p.winType w = 1 && (p.winGrant w).testBit 0 && p.covers w (a + 0x3FFFF)

/-- The sequence-table section fails R840. -/
def Part.badSeq (p : Part) (im : Image) : Bool :=
  let n := im.size secSeq
  let a := p.seqAddr im
  n < 8 || (n - 8) % 32 ≠ 0 || 4096 < im.seqCount || 2 ^ 48 ≤ a || a % 256 ≠ 0 || !p.seqWindow a ||
  (if im.keep then a ≠ p.seqBase else (List.range im.seqCount).any fun i => badSeqEntry (p.seqEntry im i))

/-- The image breaks a rule that R97 names. -/
def Part.imageBad (p : Part) (im : Image) : Bool :=
  p.badHeader im || im.size secStreams < 3072 * 8 || (List.range 3072).any (p.badStream im) ||
  im.size secWeights < 8 + 32 * p.weightCount im || (List.range (p.weightCount im)).any (fun i => p.badWeight im (p.weightWord im i)) ||
  im.size secPoints ≠ 4 * im.tiles.length || (List.range im.tiles.length).any (fun i => badPoint (p.pointAt im i)) ||
  im.size secHints < 8 * im.hintCount || (List.range im.hintCount).any (fun i => badHint (p.hintAt im i)) || p.badSeq im

/-- A route field that R292 rejects, on output `out` of router `t`; `inMap`: its tile is in POD_MAP. -/
def badRoute (t : Nat) (inMap : Bool) (w : W64) (out : Nat) : Bool :=
  let (src, op) := routeField w out
  5 < src || 5 < op || (src = 0 && op ≠ 0) || (src = 5 && op ≠ 0) || (src = 5 && out = 4) ||
  (src ≠ 0 && (src = out + 1 || (out < 4 && (meshLink t out).isNone) || (src ≤ 4 && (meshLink t (src - 1)).isNone) ||
    (!inMap && (src = 5 || op ≠ 0 || out = 4))))

/-- A slot that R292 rejects. -/
def badSlot (t : Nat) (inMap : Bool) (i : Nat) (w : W64) : Bool := match slotKind w with
  | 0 => getB w 50 14 ≠ 0 || (List.range 5).any (badRoute t inMap w)
  | 2 => getB w 32 32 ≠ 0 || i ≤ getB w 4 12
  | _ => getB w 2 62 ≠ 0

/-- A router that is dead or on a retired die (R755). -/
def Part.routerOut (p : Part) (t : Nat) : Bool := p.repair.deadRouters.contains t || p.repair.retiredDies.getLsbD (dieOf t)

/-- A slot that routes from or to a router that is out of service (R755). -/
def Part.deadRoute (p : Part) (t : Nat) (w : W64) : Bool :=
  slotKind w = 0 && (List.range 5).any fun o =>
    (routeField w o).1 ≠ 0 && (p.routerOut t || ((meshLink t o).map fun n => p.routerOut n.1).getD false)

/-- Some schedule breaks R292 or R755. -/
def Part.schedBad (p : Part) (im : Image) : Bool :=
  (maskPods im.pods).any (inMask p.repair.retiredPods) ||
  (List.range 3072).any fun t =>
    let ws := p.schedule im t
    (ws.mapIdx fun i w => (i, w)).any (fun c => badSlot t (inMask im.pods (podOf t)) c.1 c.2 || p.deadRoute t c.2) ||
    slotKind (ws.getD (im.schedSlots - 1) 0) ≠ 3

/-- The image's schedules are written into the staging banks (R283, R663). -/
def Part.fillStaging (p : Part) (im : Image) : Part :=
  foldN 3072 p fun t p => p.setRouter t { p.router t with staging := some (p.schedule im t) }

/-- STEP_ACTIVATE (R97, R663, R755): its reply is written at the boundary at which the image becomes active. -/
def execStepActivate (c : Issue) (imageId : W32) (s : State) : Host.Outcome State Fault Refusal :=
  s.onPart fun p => p.command c 24 fun p => match p.step.staged with
    | none => p.reply c stBadState 0
    | some im =>
      if im.id ≠ imageId.toNat then p.reply c stBadState 0
      else if p.imageBad im then p.reply c stImageInvalid 0
      else if p.schedBad im then p.reply c stSchedInvalid 0
      else
        let p := p.abortActivate.fillStaging im
        { p with step := { p.step with activate := some c } }

/-! ## STEP_HALT and STEP_RESUME (R116, R661) -/

/-- STEP_HALT: the next boundary acts as at a HALT verdict. -/
def execStepHalt (c : Issue) (s : State) : Host.Outcome State Fault Refusal :=
  s.onPart fun p => p.command c 25 fun p => ({ p with tick := { p.tick with haltReq := true } } : Part).reply c stOK 0

/-- STEP_RESUME: stepping goes on from the next boundary. -/
def execStepResume (c : Issue) (s : State) : Host.Outcome State Fault Refusal :=
  s.onPart fun p => p.command c 26 fun p => ({ p with tick := { p.tick with resumeReq := true } } : Part).reply c stOK 0

/-! ## Sequence commands (R101, R107, R659, R661, R678, R835) -/

/-- A slot lies in a function's range. -/
def Part.inSeqRange (p : Part) (f slot : Nat) : Bool :=
  let a := p.rd SCHED_FN_SEQ_SEQ_FIRST 0 f
  p.hasRecord f && decide (a ≤ slot) && decide (slot < a + p.rd SCHED_FN_SEQ_SEQ_COUNT 0 f)

/-- The host-owned fields of an entry replaced (R101): its first 24 bytes as numbers of 8. -/
def seqMerge (v : SeqParams) (w0 w1 w2 : W64) : List Byte :=
  let w0 := setB (setB (setB w0 0 1 (b2n v.live)) 1 1 (b2n v.hold)) 8 6 v.vf
  let w0 := if v.clearFaulted then setB w0 2 1 0 else w0
  leBytes 8 w0.toNat ++ leBytes 8 (setB w1 0 48 v.pmapPtr).toNat ++ leBytes 8 (setB w2 0 48 v.statePtr).toNat

/-- SEQ_WRITE (R107, R454, R661, R678, R835): host-owned fields of a committed entry by one transaction. -/
def execSeqWrite (c : Issue) (v : SeqParams) (s : State) : Host.Outcome State Fault Refusal :=
  s.onPart fun p => p.command c 27 fun p =>
    let a := p.seqBase + 32 * v.slot
    let f := c.fn.val
    let cur := fld (leNat (p.bytesAt (p.phys a) 8)) 8 6
    if p.step.active.isNone then p.reply c stBadState 0
    else if 4095 < v.slot || 2 ^ 48 ≤ v.pmapPtr || 2 ^ 48 ≤ v.statePtr ||
        (if c.cls = .t then !p.inSeqRange f v.slot || cur ≠ f || v.vf.val ≠ f else v.vf ≠ 0 && !p.inSeqRange v.vf v.slot) then p.reply c stBadParam 0
    else if p.claimed a 32 then p
    else
      let (p, bs, bad) := p.readRange (lineOf a) 256
      if !bad.isEmpty then p.reply c fPoison 0
      else
        let w (i : Nat) : W64 := BitVec.ofNat 64 (leAt bs (a % 256 + 8 * i) 8)
        (p.storeRange a (seqMerge v (w 0) (w 1) (w 2))).reply c stOK 0

/-- SEQ_READ (R659, R661, R835): entries of the committed bank; those of a poisoned sector are zero. -/
def execSeqRead (c : Issue) (first count : Nat) (s : State) : Host.Outcome State Fault Refusal :=
  s.onPart fun p => p.command c 28 fun p =>
    let a := p.seqBase + 32 * first
    if p.step.active.isNone then p.reply c stBadState 0
    else if count = 0 || 128 < count || 4096 < first + count ||
        (c.cls = .t && (List.range count).any fun i => !p.inSeqRange c.fn (first + i)) then p.reply c stBadParam 0
    else
      let (p, bs, bad) := p.readRange a (32 * count)
      let bs := (bs.mapIdx fun i b => if bad.contains (sectorOf (a + i)) then 0 else b).take c.outLen
      p.reply c (if bad.isEmpty then stOK else fPoison) bs.length bs

end Sys2Proof.Machine
end

