-- ==== Sys2Proof/Machine/Queues.lean ====
section
/-! DEFINITION. Machine/Queues.lean: submission and completion queues: doorbells, slots, starting commands, queue commands, status replies (14, 15). -/

namespace Sys2Proof.Machine

/-! ## GEN numbers (R628) -/

def genCycle : Nat := 4294967295
/-- The generation after `g`. -/
def nextGen (g : Nat) : Nat := g % genCycle + 1
/-- How far generation `b` lies after `a`. -/
def genDist (a b : Nat) : Nat := (b + genCycle - a) % genCycle

/-- Records of the ring that a doorbell has announced and that are not accepted yet. -/
def SubQ.announced (x : SubQ) : Nat := if x.doorbell ≠ 0 && genDist x.expect x.doorbell < 2 ^ x.log2 then genDist x.expect x.doorbell + 1 else 0

/-- A queue stops at its slot (R631, R633, R645): its function is told. -/
def Part.stopQueue (p : Part) (fn q cause : Nat) : Part :=
  let x := p.sq fn q
  let p := p.setSq fn q { x with state := 2, cause, retrying := false, rereads := 0, misses := 0 }
  p.event fn 0x208 (q + 256 * cause + 2 ^ 32 * x.expect)

/-- The generation after the last record accepted. -/
def SubQ.after (x : SubQ) : Nat := nextGen x.accepted
/-- A doorbell has announced generation `g` or a later one (R629, R634). -/
def SubQ.covered (x : SubQ) (g : Nat) : Bool :=
  x.doorbell ≠ 0 && genDist x.after x.doorbell < 2 ^ x.log2 && genDist x.after g ≤ genDist x.after x.doorbell

/-- The next announced slot of a running queue is read (R630); during a firmware switch doorbells are only recorded (R764). -/
def Part.fetchSlot (p : Part) (fn q : Nat) : Part := if !p.repair.fwOld && (p.sq fn q).state = 1 && 0 < (p.sq fn q).announced then p.emit (.hostRead fn q) else p

/-! ## Doorbells (R629, R634, R826) -/

/-- A submission doorbell. One that withdraws records changes nothing; a queue that is stopped or disabled only records it. -/
def Part.sqDoorbell (p : Part) (fn q v : Nat) : Part :=
  let p := p.inc UCI_COUNTS_DOORBELLS
  let x := p.sq fn q
  if v = 0 || 2 ^ 32 ≤ v || (x.state ≠ 0 && 2 ^ x.log2 ≤ genDist x.after v) then p.set1 UCI_EVENTS_DB_BAD
  else if x.covered v then p
  else
    let idle := x.announced = 0
    let p := p.setSq fn q { x with doorbell := v }
    if idle then p.fetchSlot fn q else p

/-- A completion head: entries up to the count are free (R652, R826). -/
def Part.cqDoorbell (p : Part) (fn q v : Nat) : Part :=
  let c := p.cq fn q
  let d := (v + 2 ^ 32 - c.consumed % 2 ^ 32) % 2 ^ 32
  if d = 0 then p
  else if c.written - c.consumed < d then p.set1 UCI_EVENTS_DB_BAD
  else p.setCq fn q { c with consumed := c.consumed + d }

/-- A restart of a stopped queue from FROM (R634). -/
def Part.restartQueue (p : Part) (fn q : Nat) (v : W64) : Part :=
  let x := p.sq fn q
  let g := getB v 32 32
  if getB v 0 1 = 0 then p
  else if x.state ≠ 2 || g = 0 || !x.covered g then p.set1 UCI_EVENTS_DB_BAD
  else (p.setSq fn q { x with state := 1, cause := 0, expect := g }).fetchSlot fn q

/-- DBP_SQ_DB (R629). -/
def execDbpSqDb (fn : FnId) (q : Fin 32) (value : W32) (s : State) : Host.Outcome State Fault Refusal :=
  s.onPart fun p => p.sqDoorbell fn q value.toNat

/-- DBP_CQ_DB (R826). -/
def execDbpCqDb (fn : FnId) (q : Fin 32) (value : W32) (s : State) : Host.Outcome State Fault Refusal :=
  s.onPart fun p => p.cqDoorbell fn q value.toNat

/-- DBP_Q_CTL (R12, R634): only a 64-bit write acts. -/
def execDbpQCtl (fn : FnId) (q : Fin 32) (wide : Bool) (value : W64) (s : State) : Host.Outcome State Fault Refusal :=
  s.onPart fun p => if wide then p.restartQueue fn q value else p

/-! ## Slots (R628, R630, R631, R646–R648) -/

/-- GEN_TAIL and the header of a slot name the expected record (R628, R630). -/
def slotMatches (slot : List Byte) (fn q gen : Nat) : Bool :=
  leAt slot (slot.length - 8) 8 = gen + 2 ^ 32 * fn + 2 ^ 38 * q && leAt slot 12 4 = gen

/-- A header that R648 rejects. -/
def badSlotHeader (slot : List Byte) (fn : Nat) : Bool :=
  let flags := leAt slot 2 2
  let len := leAt slot 8 2
  let ptr := leAt slot 16 8
  16 ≤ flags || 2 ^ 13 ≤ len || 64 ≤ leAt slot 10 1 || leAt slot 11 1 ≠ fn || leAt slot 24 40 ≠ 0 || 4096 < len ||
  (!flags.testBit 0 && slot.length - 72 < len) || (flags.testBit 0 && (ptr % 8 ≠ 0 || 4096 < ptr % 4096 + len))

/-- The record of a slot. -/
def Part.recOf (p : Part) (slot : List Byte) (fn q gen : Nat) : CmdRec :=
  let flags := leAt slot 2 2
  { fn, q, gen := BitVec.ofNat 32 gen, op := BitVec.ofNat 16 (leAt slot 0 2), tag := BitVec.ofNat 32 (leAt slot 4 4), ordered := flags.testBit 2,
    notify := flags.testBit 3, remote := if flags.testBit 1 then some (leAt slot 10 1) else none,
    params := if flags.testBit 0 then [] else Sys2Proof.Machine.slice slot 64 (leAt slot 8 2), bad := badSlotHeader slot fn, at_ := p.now }

/-- SLOT_READ_DATA (R630, R631, R647): the slot is accepted, or it does not match; after the first read and 8 re-reads without a match the queue
stops with DOORBELL_AHEAD. An indirect parameter block is read next. -/
def execSlotReadData (fn : FnId) (q : Fin 32) (slot : List Byte) (s : State) : Host.Outcome State Fault Refusal :=
  s.onPart fun p =>
    let x := p.sq fn q
    if x.state ≠ 1 || x.announced = 0 || slot.length ≠ 2 ^ x.slotLog2 then p
    else if slotMatches slot fn q x.expect then
      let r := p.recOf slot fn q x.expect
      let p := p.setSq fn q { x with accepted := x.expect, expect := nextGen x.expect, rereads := 0, misses := 0, retrying := false }
      let p := ({ p with host := { p.host with accepted := p.host.accepted ++ [r] } } : Part).inc CMD_COUNTS_ACCEPTED
      let p := if (leAt slot 2 2).testBit 0 && !r.bad then p.emit (.hostRead fn (32 + q)) else p
      p.fetchSlot fn q
    else if 8 ≤ x.misses then
      let p := (p.set1 UCI_EVENTS_DB_AHEAD).inc UCI_COUNTS_AHEAD
      (p.msix fn x.vector).stopQueue fn q 1
    else p.setSq fn q { x with retrying := true, misses := x.misses + 1 }

/-- SLOT_REREAD (R631): at most 8, on their own schedule. -/
def execSlotReread (fn : FnId) (q : Fin 32) (s : State) : Host.Outcome State Fault Refusal :=
  s.onPart fun p =>
    let x := p.sq fn q
    if x.state ≠ 1 || !x.retrying || 8 ≤ x.rereads then p
    else ((p.setSq fn q { x with rereads := x.rereads + 1 }).inc UCI_COUNTS_REREADS).emit (.hostRead fn q)

/-- A started record ends with a status, in the entry of its completion queue that it reserved. -/
def Part.endRec (p : Part) (r : CmdRec) (status : Nat) (detail : W64) : Part :=
  let p : Part := { p with host := { p.host with started := p.host.started.filter fun x => !isRec r.fn r.q r.gen x } }
  p.queueReply r.fn r.q { op := r.op, fn := r.fn, sq := r.q, tag := r.tag, gen := r.gen, status := BitVec.ofNat 16 status, event := false,
                          detail, time := p.ns } r.notify r.silent

/-- HOST_READ_TIMEOUT (R633): of a slot fetch, or of the parameters of record `gen`: a record not started yet is answered when it has a completion
entry (R652). -/
def execHostReadTimeout (fn : FnId) (q : Fin 32) (gen : Option W32) (s : State) : Host.Outcome State Fault Refusal :=
  s.onPart fun p => match gen with
    | none => if (p.sq fn q).state = 1 && 0 < (p.sq fn q).announced then (p.set1 UCI_EVENTS_HOST_TIMEOUT).stopQueue fn q 2 else p
    | some g =>
      if p.host.accepted.any (isRec fn q g) then
        let p := p.set1 UCI_EVENTS_HOST_TIMEOUT
        { p with host := { p.host with accepted := p.host.accepted.map fun r => if isRec fn q g r then { r with lost := true } else r } }
      else match p.host.started.find? (isRec fn q g) with
        | none => p
        | some r => (p.set1 UCI_EVENTS_HOST_TIMEOUT).endRec r stHostAbort 0

/-! ## Starting commands (R652, R655, R658, R694) -/

/-- Index of an opcode in R661's order. -/
def opIndex (op : Nat) : Option Nat := (List.range 45).find? fun i => opCodes.getD i 0 = op

/-- The answer to a record that goes no further when it starts: by the Husk, or HOST_ABORT (R633, R648, R658). -/
def Part.huskAnswer (p : Part) (r : CmdRec) : Option Nat :=
  let c : CmdClass := if r.fn = 0 then .m else .t
  if r.bad then some stBadHeader
  else match opIndex r.op.toNat with
    | none => some stUnknownOpcode
    | some i => if !p.admits i c then some stClassDenied else if r.lost then some stHostAbort else none

/-- COMMAND_START (R652, R655, R658, R694, R764): the oldest accepted record of a queue starts once it has a completion entry, fewer than 64 commands of
the function run, and, when ORDERED, every earlier one of the queue has completed. -/
def execCommandStart (fn : FnId) (q : Fin 32) (s : State) : Host.Outcome State Fault Refusal :=
  s.onPart fun p => match p.host.accepted.find? fun r => r.fn = fn.val && r.q = q.val with
    | none => p
    | some r =>
      let cq := (p.sq fn q).cq
      let c := p.cq fn cq
      let mine := p.host.started.filter fun x => x.fn = fn.val
      if p.repair.fwOld || !c.room || 64 ≤ mine.length || (r.ordered && mine.any fun x => x.q = q.val) then p
      else
        let p := p.setCq fn cq { c with reserved := c.reserved + 1 }
        let p : Part := { p with host := { p.host with accepted := p.host.accepted.filter (fun x => !isRec fn q r.gen x)
                                                       started := p.host.started ++ [r] } }
        let p := if p.hasRecord fn then p.inc SCHED_FN_COMMANDS_V 1 0 fn else p
        let p := if r.op.toNat = 0x0401 then p else p.chargeWait fn (p.now - r.at_)
        match p.huskAnswer r with
        | none => p
        | some st => (if st = stBadHeader || st = stHostAbort then p else p.huskCapture r.op.toNat st (b2n (fn ≠ 0)) fn).endRec r st 0

/-- STATUS_REPLY (R493, R650): the work of a started command has ended; its reply is written, MSI-X after it. -/
def execStatusReply (fn : FnId) (sq : Nat) (gen : W32) (status : BitVec 16) (detail : W64) (s : State) : Host.Outcome State Fault Refusal :=
  s.onPart fun p => match p.host.started.find? (isRec fn sq gen) with
    | none => p
    | some r => p.endRec r status.toNat detail

/-! ## Queue commands (R654, R656, R661) -/

/-- MSI-X vectors of a function (R618). -/
def vectors (fn : Nat) : Nat := if fn = 0 then 2048 else 64

/-- QUEUE_CREATE (R654, R656). -/
def execQueueCreate (c : Issue) (v : QueueParams) (s : State) : Host.Outcome State Fault Refusal :=
  s.onPart fun p => p.command c 5 fun p =>
    let f := v.targetFn.val
    let used := if v.completion then (p.cq f v.queue).exists_ else (p.sq f v.queue).state ≠ 0
    if !ownOnly c f || 31 < v.queue || p.rd UCI_STATUS_NUM_VF < f || used || v.entriesLog2 < 4 || 12 < v.entriesLog2 || vectors f ≤ v.vector ||
        v.base % 4096 ≠ 0 then p.reply c stBadParam 0
    else if v.completion then
      if v.events && (p.eventCq f).isSome then p.reply c stBadParam 0
      else (p.setCq f v.queue { exists_ := true, base := v.base, log2 := v.entriesLog2, vector := v.vector, events := v.events }).reply c stOK 0
    else if v.slotLog2 < 7 || 12 < v.slotLog2 || 31 < v.cq || !(p.cq f v.cq).exists_ then p.reply c stBadParam 0
    else
      (p.setSq f v.queue { state := 1, base := v.base, log2 := v.entriesLog2, slotLog2 := v.slotLog2, vector := v.vector, cq := v.cq }).reply c stOK 0

/-- A submission queue is disabled: its records not yet started are dropped. -/
def Part.disableSq (p : Part) (fn q cause : Nat) : Part :=
  let x := p.sq fn q
  let p := p.setSq fn q { x with state := 0, cause, retrying := false, rereads := 0, misses := 0 }
  { p with host := { p.host with accepted := p.host.accepted.filter fun r => !(r.fn = fn && r.q = q) } }

/-- QUEUE_DESTROY (R661): a completion queue still bound to a live submission queue stays. -/
def execQueueDestroy (c : Issue) (completion : Bool) (q : Nat) (fn : FnId) (s : State) : Host.Outcome State Fault Refusal :=
  s.onPart fun p => p.command c 6 fun p =>
    let f := fn.val
    if !ownOnly c f || 31 < q || (if completion then !(p.cq f q).exists_ else (p.sq f q).state = 0) then p.reply c stBadParam 0
    else if !completion then (p.disableSq f q 0).reply c stOK 0
    else if (List.range 32).any fun i => (p.sq f i).state ≠ 0 && (p.sq f i).cq = q then p.reply c stBadState 0
    else
      let p := p.reply c stOK 0
      p.setCq f q {}

end Sys2Proof.Machine
end

