-- ==== Sys2Proof/Machine/HostPort.lean ====
section
/-! DEFINITION. Machine/HostPort.lean: the host's accesses, doorbell pages and mailboxes, the UCIe link, detach and attach, function level resets, logs
read out; register rows of their own (14, 15, 18). -/

namespace Sys2Proof.Machine

/-! ## Doorbell pages (R625–R627, R645) -/

/-- DBP_Q_STATUS of a queue (R645). -/
def SubQ.status (x : SubQ) : W64 := setB (setB (setB 0 0 2 x.state) 8 3 x.cause) 32 32 x.accepted

/-- The word at offset `o` (a multiple of 8) of a doorbell page; none where nothing is listed. -/
def Part.dbpRead (p : Part) (fn o : Nat) : Option W64 :=
  if o < 0x200 || (0x300 ≤ o && o < 0x400) then some 0
  else if o < 0x300 then some (p.sq fn ((o - 0x200) / 8)).status
  else if (0x800 ≤ o && o < 0x908) || (fn ≠ 0 && 0x4000 ≤ o && o < 0x4408) then some (p.page (pageKey fn o))
  else none

/-- A write of a doorbell page word: `m` is the half written. DBP_Q_CTL acts on a 64-bit write only (R12). -/
def Part.dbpWrite (p : Part) (fn o : Nat) (w m : W64) : Option Part :=
  let q := o / 8 % 32
  let low := getB m 0 1 = 1
  let k := pageKey fn o
  if o < 0x100 then some (if low then p.sqDoorbell fn q (getB w 0 32) else p)
  else if o < 0x200 then some (if low then p.cqDoorbell fn q (getB w 0 32) else p)
  else if o < 0x300 then some p
  else if o < 0x400 then some (if m = 0xFFFFFFFFFFFFFFFF then p.restartQueue fn q w else p)
  else if (0x800 ≤ o && o < 0x880) || (fn ≠ 0 && 0x4000 ≤ o && o < 0x4400) then some (p.setPage k ((p.page k &&& ~~~m) ||| (w &&& m)))
  else if (0x880 ≤ o && o < 0x900) || (fn ≠ 0 && o = 0x4400) then some p
  else if o = 0x900 then
    let p := if getB w 0 1 = 1 then p.vfSend fn else p
    some (if getB w 1 1 = 1 then p.setPage k (p.page k &&& ~~~2) else p)
  else none

/-- DBP_MBX_SEND (R627): a VF's write of 1 to SEND. -/
def execDbpMbxSend (fn : FnId) (s : State) : Host.Outcome State Fault Refusal := s.onPart fun p => p.vfSend fn

/-- UCI_MBX_SEND (R12, R626, R627). -/
def execUciMbxSend (mask : W64) (s : State) : Host.Outcome State Fault Refusal := s.onPart fun p => p.managerSend mask

/-! ## Accesses of the host (R622–R624) -/

/-- What lies at a BAR0 offset beside the registers of control space: the PF's doorbell page, mailbox areas, the PF's MSI-X table. -/
inductive HostWord where
  | page (o : Nat)
  | mail (vf o : Nat)
  | msix (o : Nat)
  | pba
  | reg
deriving DecidableEq, Repr

def hostWord (o : Nat) : HostWord :=
  if 0x48000 ≤ o && o < 0x50000 then .page (o - 0x48000)
  else if 0x60400 ≤ o && o < 0x64300 then .mail ((o - 0x60400) / 0x100 + 1) (o % 0x100)
  else if 0x67F00 ≤ o && o < 0x68000 then .pba
  else if 0x68000 ≤ o && o < 0x70000 then .msix (o - 0x68000)
  else .reg

/-- The part of a word that a read of `width` bytes returns. -/
def halfOf (o width : Nat) (v : W64) : W64 := if width = 8 then v else if o % 8 = 0 then v &&& 0xFFFFFFFF else v >>> 32

def Part.hostRead (p : Part) (o width : Nat) : Option (W64 × Part) :=
  let a := o / 8 * 8
  if !csAligned o width then none
  else match hostWord a with
    | .page x => (p.dbpRead 0 x).map fun v => (halfOf o width v, p)
    | .mail vf x => some (halfOf o width (p.page (mailKey vf x)), p)
    | .msix x => some (halfOf o width (p.page (msixKey x)), p)
    | .pba => some (0, p)
    | .reg => p.csRead o width

def Part.hostWrite (p : Part) (o width : Nat) (v : W64) : Option Part :=
  let a := o / 8 * 8
  let m := halfMask o width
  let w := if width = 8 then v else if o % 8 = 0 then v &&& 0xFFFFFFFF else v <<< 32
  let put (k : Nat) : Part := p.setPage k ((p.page k &&& ~~~m) ||| (w &&& m))
  if !csAligned o width then none
  else match hostWord a with
    | .page x => p.dbpWrite 0 x w m
    | .mail vf x => some (if x < 0x80 then p else put (mailKey vf x))
    | .msix x => some (put (msixKey x))
    | .pba => some p
    | .reg => p.csWrite o width v

/-- A rejected host access: the first is captured; a read completes with Unsupported Request (R623, R644). -/
def Part.badAccess (p : Part) (bar o : Nat) (write : Bool) : Part :=
  let p := p.set1 UCI_EVENTS_BAD_ACCESS
  let p := if p.rd UCI_BAD_ACCESS_VALID = 1 then p
    else p.setReg reg_UCI_BAD_ACCESS (setB (setB (setB (setB 0 0 40 o) 40 2 bar) 42 1 (b2n write)) 63 1 1)
  if write then p else p.emit (.readData none)

/-- BAR0_ACCESS (R7, R8, R12, R60, R622, R623, R625, R748): after a fatal error registers can still be read, and nothing is written. -/
def execBar0Access (offset width : Nat) (write : Bool) (value : W64) (s : State) : Host.Outcome State Fault Refusal :=
  s.onAny fun p =>
    if write then if p.fatal then p else (p.hostWrite offset width value).getD (p.badAccess 0 offset true)
    else match p.hostRead offset width with
      | some (v, p) => p.emit (.readData (some v))
      | none => p.badAccess 0 offset false

/-- BAR2_ACCESS (R369, R616, R624): performed at the home slices, checked against bit 0 of the grant. Poisoned sectors come as free values. -/
def execBar2Access (offset : Nat) (write : Bool) (len : Nat) (data : List Byte) (s : State) : Host.Outcome State Fault Refusal :=
  s.onPart fun p =>
    let a := 0x10000000 * p.rd UCI_BAR2_BASE_BASE + offset
    let n := if write then data.length else len
    if n = 0 then p
    else if !p.hbmIn (a + n - 1) || !p.granted 0 a n write then p.badAccess 1 offset write
    else if write then p.storeRange a data
    else
      let (p, bs, bad) := p.readRange a n
      let bs := bs.mapIdx fun i b => if bad.contains (sectorOf (a + i)) then (Config.freeWord (p.freeCtr + i)).setWidth 8 else b
      { p with freeCtr := p.freeCtr + n }.emit (.barData bs)

/-! ## The link (R620, R621) -/

/-- LINK_DOWN (R621, R642): the link leaves ACTIVE. -/
def execLinkDown (now : Nat) (s : State) : Host.Outcome State Fault Refusal :=
  s.onAny fun p =>
    if p.rd UCI_STATUS_LINK_STATE ≠ 5 then p
    else
      let p := p.at now
      let p := (p.wr UCI_STATUS_LINK_STATE 6).set1 UCI_EVENTS_LINK_DOWN
      { p with host := { p.host with downAt := p.now } }

/-- LINK_RETRAIN (R620, R621, R643): the modules that came up, and the redundant lanes each uses. -/
def execLinkRetrain (modules : BitVec 2) (repaired0 repaired1 : Nat) (s : State) : Host.Outcome State Fault Refusal :=
  s.onAny fun p =>
    let more := p.rd UCI_LANES_REPAIRED_M0 < repaired0 || p.rd UCI_LANES_REPAIRED_M1 < repaired1
    let p := (p.wr UCI_LANES_REPAIRED_M0 repaired0).wr UCI_LANES_REPAIRED_M1 repaired1
    let p := if more then p.set1 UCI_EVENTS_LANE_REPAIR else p
    let p := if modules = 3 then p else p.set1 UCI_EVENTS_MODULE_LOST
    let p := p.wr UCI_STATUS_MODULES modules.toNat
    if modules = 0 then p.wr UCI_STATUS_LINK_STATE 7
    else ((p.wr UCI_STATUS_LINK_STATE 5).set1 UCI_EVENTS_RETRAIN).inc UCI_LANES_RETRAINS

/-! ## Detach and attach (R635–R640, R670) -/

/-- The part detaches from its host (R636, R637): every running queue stops, counts of this detachment start. -/
def Part.detach (p : Part) (cause : Nat) : Part :=
  if !p.attached then p
  else
    let p := ((p.wr UCI_STATUS_ATTACHED 0).wr UCI_STATUS_DETACH_CAUSE cause).set1 UCI_EVENTS_DETACH
    let p := (p.wr UCI_STATUS_NUM_VF 0).wr UCI_STATUS_HELD_REPLIES 0
    { p with host := { p.host with
        sqs := p.host.sqs.map fun c => (c.1, if c.2.state = 1 then { c.2 with state := 2, cause := 4, retrying := false, rereads := 0, misses := 0 } else c.2)
        held := [], heldDropped := 0, evCount := [], detachTick := p.tickNo, openStop := false } }

/-- DETACH_TIMEOUT (R636, R643): the link has been away for DETACH_MS. -/
def execDetachTimeout (now : Nat) (s : State) : Host.Outcome State Fault Refusal :=
  s.onAny fun p =>
    if p.rd UCI_STATUS_LINK_STATE = 5 || max now p.now < p.host.downAt + ms (clamp 1 1000 (p.rd UCI_CFG_DETACH_MS)) then p
    else (p.at now).detach 1

/-- HOT_RESET (R636). -/
def execHotReset (s : State) : Host.Outcome State Fault Refusal := s.onAny fun p => p.detach 2

/-- PF_FLR (R635, R636): a detach. -/
def execPfFlr (s : State) : Host.Outcome State Fault Refusal := s.onAny fun p => p.detach 3

/-- VF_FLR (R635): queues stop, records not started are dropped, started commands end in silence; page, MSI-X table and mailbox are reset. -/
def execVfFlr (fn : FnId) (s : State) : Host.Outcome State Fault Refusal :=
  s.onAny fun p =>
    if !p.vfEnabled fn then p
    else
      let f := fn.val
      let mine (k : Nat) : Bool := k / 0x10000 = f || (0x400000 + 0x100 * (f - 1) ≤ k && k < 0x400000 + 0x100 * f)
      let p : Part := { p with host := { p.host with
        sqs := p.host.sqs.map fun c => (c.1, if c.1 / 32 = f && c.2.state ≠ 0 then { c.2 with state := 0, cause := 3, retrying := false, rereads := 0, misses := 0 } else c.2)
        cqs := p.host.cqs.filter fun c => c.1 / 32 ≠ f
        pages := p.host.pages.filter fun c => !mine c.1
        accepted := p.host.accepted.filter fun r => r.fn ≠ f
        started := p.host.started.map fun r => if r.fn = f then { r with silent := true } else r } }
      let p := p.setReg reg_UCI_MBX_PENDING (p.reg reg_UCI_MBX_PENDING &&& ~~~((1 : W64) <<< f))
      p.event 0 0x206 f

/-- The lines of a window leave every slice without write-back: their range is about to be dead. -/
def Part.dropWindow (p : Part) (w : Nat) : Part :=
  foldN 256 p fun s p => foldL (p.slice s).ways p fun c p =>
    if c.2.win = w && (c.2.kind = .line || c.2.kind = .pair) then
      let p := foldL c.2.lines p fun l p => p.abortClaims s l 1 fun _ => true
      p.modSlice s fun z => { z.putWay (c.1 / 16) (c.1 % 16) {} with rsvs := z.rsvs.filter fun r => !c.2.lines.contains r.line }
    else p

/-- Every line of a window's range is made dead and the window is destroyed, in one step (R640, R681; log 22). -/
def Part.deadWindow (p : Part) (w : Nat) : Part :=
  let x := p.phys (p.winBase w)
  let n := p.winSize w
  let here (a : Nat) : Bool := decide (x ≤ a) && decide (a < x + n)
  let p := p.dropWindow w
  let p : Part := { p with dirty := p.dirty.filter (fun c => !here c.1), poison := p.poison.filter (fun a => !here a)
                           dead := p.dead.filter (fun a => !here a) ++ (List.range (n / 256)).map fun i => x + 256 * i }
  let p := p.wr LLC_WIN_BASE_VALID 0 0 w
  let waits := p.cleans.filterMap fun k => if k.kind = .destroy w then k.issue else none
  let p : Part := { p with
    closing := delNat p.closing w, cleans := p.cleans.filter fun k => k.kind ≠ .destroy w
    hbm := { p.hbm with repairs := p.hbm.repairs.filter fun r => r.win ≠ w, waiting := p.hbm.waiting.filter fun r => r.2.1 ≠ w
                        failed := p.hbm.failed.filter fun r => r.1 ≠ w } }
  foldL waits p fun c p => p.reply c stOK 0

/-- A record of 64 bytes from its parts: (offset, bytes). -/
def record (l : List (Nat × List Byte)) : List Byte :=
  (List.range 64).map fun i => ((l.find? fun c => c.1 ≤ i && i < c.1 + c.2.length).map fun c => c.2.getD (i - c.1) 0).getD 0

/-- The preserved-state inventory (R639, R670), its records in the order of the table. -/
def Part.inventory (p : Part) : List (List Byte) :=
  let wins := (List.range 64).filter fun n => p.winValid n && p.rd LLC_WIN_ATTR_KEEP 0 n = 1
  let vfs := (List.range 64).filter fun f => f ≠ 0 && p.hasRecord f
  let pods (f : Nat) : Nat := (List.range 192).foldl (fun m q => if (p.rd PD_GRANT_FN q).testBit f then m + 2 ^ q else m) 0
  let total := 2 + wins.length + vfs.length + p.host.held.length + p.host.evCount.length
  [record [(0, [1]), (8, leBytes 8 p.host.detachTick), (16, leBytes 8 p.host.attachTick), (24, leBytes 4 p.host.held.length),
           (28, leBytes 4 p.host.heldDropped), (32, leBytes 4 total)]] ++
  wins.map (fun n => record [(0, [2]), (1, leBytes 1 n), (8, p.regBytes reg_LLC_WIN_BASE 0 n), (16, p.regBytes reg_LLC_WIN_SIZE 0 n),
                             (24, p.regBytes reg_LLC_WIN_ATTR 0 n), (32, p.regBytes reg_LLC_WIN_GRANT 0 n)]) ++
  vfs.map (fun f => record [(0, [3]), (1, leBytes 1 f), (8, leBytes 24 (pods f)), (32, leBytes 4 (p.rd SCHED_FN_SEQ_SEQ_COUNT 0 f)),
                            (36, leBytes 4 (p.share f))]) ++
  [record [(0, [4]), (8, p.regBytes reg_TICK_IMAGE), (16, p.regBytes reg_TICK_SEQ)]] ++
  p.host.held.map (fun r => record [(0, [5]), (1, leBytes 1 r.fn), (32, r.bytes false)]) ++
  p.host.evCount.map fun c => record [(0, [6]), (2, leBytes 2 c.1), (8, leBytes 8 c.2)]

/-- Records from a cursor, as many as OUT_LEN holds (R649, R661): DETAIL holds the bytes and the next cursor, 0 at the end. -/
def Part.records (p : Part) (c : Issue) (l : List (List Byte)) (size cursor : Nat) : Part :=
  let out := (l.drop cursor).take (c.outLen / size)
  let next := if l.length ≤ cursor + out.length then 0 else cursor + out.length
  p.reply c stOK (size * out.length + 2 ^ 32 * next) out.flatten

/-- ATTACH (R638–R640, R670): windows without KEEP go, their ranges dead; the host has its VFs back. -/
def execAttach (c : Issue) (s : State) : Host.Outcome State Fault Refusal :=
  s.onPart fun p => p.command c 2 fun p =>
    if p.attached then p.reply c stBadState 0
    else
      let p := foldL ((List.range 64).filter fun n => p.winValid n && p.rd LLC_WIN_ATTR_KEEP 0 n = 0) p fun n p => p.deadWindow n
      let p := ((p.wr UCI_STATUS_ATTACHED 1).wr UCI_STATUS_NUM_VF p.host.numVf).set1 UCI_EVENTS_ATTACH
      let p : Part := { p with host := { p.host with attachTick := p.tickNo, openStop := false } }
      p.records c p.inventory 64 0

/-- INVENTORY_READ (R670). -/
def execInventoryRead (c : Issue) (cursor : Nat) (s : State) : Host.Outcome State Fault Refusal :=
  s.onPart fun p => p.command c 3 fun p => if p.inventory.length ≤ cursor then p.reply c stBadParam 0 else p.records c p.inventory 64 cursor

/-- The error log, oldest first (R749, R751). -/
def Part.elog (p : Part) : List (List Byte) :=
  let n := p.rd GLOBAL_ELOG_STATUS_NEXT
  (((List.range 128).map fun i => (n + i) % 128).filter fun i => p.rd GLOBAL_ELOG0_VALID 0 i = 1).map fun i =>
    p.regBytes reg_GLOBAL_ELOG0 0 i ++ p.regBytes reg_GLOBAL_ELOG1 0 i ++ p.regBytes reg_GLOBAL_ELOG2 0 i ++ p.regBytes reg_GLOBAL_ELOG3 0 i

/-- The entries of the repair records (R750). -/
def Serial.records (x : Serial) : List (List Byte) :=
  (x.fatal ++ x.actions).map fun e => leBytes 8 e.1.toNat ++ leBytes 8 e.2.1.toNat ++ leBytes 8 e.2.2.1.toNat ++ leBytes 8 e.2.2.2.toNat

/-- LOG_READ (R748, R750): log 0 is the error log, log 1 the repair records. -/
def execLogRead (c : Issue) (log cursor : Nat) (s : State) : Host.Outcome State Fault Refusal :=
  s.onAny fun p => p.command c 4 fun p =>
    if 1 < log then p.reply c stBadParam 0 else p.records c (if log = 0 then p.elog else s.serial.records) 32 cursor

/-! ## Register rows (R8, R118, R119, R176, R609, R671, R827) -/

/-- A register write without an answer. -/
def Part.plainWrite (p : Part) (o width : Nat) (v : W64) : Part := (p.csWrite o width v).getD p

/-- TICK_CTL_WRITE (R118, R119). -/
def execTickCtlWrite (value : W64) (s : State) : Host.Outcome State Fault Refusal := s.onPart fun p => p.plainWrite 0x10000 8 value

/-- FAULT_CLEAR (R176): 1 written to TL_EVENTS.FAULT of a tile. -/
def execFaultClear (t : TileId) (s : State) : Host.Outcome State Fault Refusal :=
  s.onPart fun p => (p.wr TL_EVENTS_FAULT 0 t).wr TL_FAULT_PC_MORE 0 t

/-- ADMQ_ENABLE (R671, R672): a write of CMD_ADMQ_CFG. -/
def execAdmqEnable (value : W64) (s : State) : Host.Outcome State Fault Refusal := s.onPart fun p => p.plainWrite 0x40010 8 value

/-- PORT_ENABLE (R566, R571, R609). -/
def execPortEnable (i : PortId) (on : Bool) (s : State) : Host.Outcome State Fault Refusal :=
  s.onPart fun p => (p.wr BLK_CFG_ENABLE (b2n on) i).portEnabled i (p.rd BLK_CFG_ENABLE i = 1)

/-- RC_READ (R8, R10, R827): a register read; it works after a fatal error (R748). -/
def execRcRead (offset width : Nat) (s : State) : Host.Outcome State Fault Refusal :=
  s.onAny fun p => match p.csRead offset width with
    | some (v, p) => p.emit (.readData (some v))
    | none => p.emit (.readData none)

/-- REGISTER_WRITE (R7, R8, R9, R12, R60). -/
def execRegisterWrite (offset width : Nat) (value : W64) (s : State) : Host.Outcome State Fault Refusal :=
  s.onPart fun p => p.plainWrite offset width value

end Sys2Proof.Machine
end

