-- ==== Sys2Proof/Machine/Tenants.lean ====
section
/-! DEFINITION. Machine/Tenants.lean: the scheduler's check, commands that wait for kernels to end, VF_DESTROY, REVOKE (09, 16). -/

namespace Sys2Proof.Machine

/-! ## VF_DESTROY (R681) -/

/-- Every queue of a function is disabled with cause FLR. -/
def Part.disableQueues (p : Part) (fn : Nat) : Part := foldN 32 p fun q p => if (p.sq fn q).state = 0 then p else p.disableSq fn q 3

/-- Windows of a destroyed function with DEAD_WINDOWS: those granted to it alone and not SHARED_IMM are made dead and destroyed, its bit leaves
every other grant mask. -/
def Part.deadWindows (p : Part) (fn : Nat) : Part :=
  foldN 64 p fun w p =>
    if !p.winValid w then p
    else if p.winGrant w = 2 ^ fn && !p.winShared w then p.deadWindow w
    else p.setReg reg_LLC_WIN_GRANT (p.reg reg_LLC_WIN_GRANT 0 w &&& ~~~((1 : W64) <<< fn)) 0 w

/-- A function's record and its accounting are gone. -/
def Part.dropRecord (p : Part) (fn : Nat) : Part :=
  let p := foldL ([reg_SCHED_FN_CFG, reg_SCHED_FN_SEQ, reg_SCHED_FN_VT] ++ accountRegs) p fun r p => p.setReg r 0 0 fn
  { p with sched := { p.sched with frac := p.sched.frac.filter fun c => c.1 / 16 ≠ fn } }

/-- The started commands of a function end with ABORTED; what waits on their behalf no longer answers. Its launches answer when their kernels have
ended. `but` is the REVOKE itself. -/
def Part.abortFn (p : Part) (fn : Nat) (but : W32) : Part :=
  let kernels := p.sched.kernels.filterMap fun c => c.2.map fun k => k.issue
  let launch (r : CmdRec) : Bool := kernels.any fun i => isRec i.fn.val i.sq i.gen r
  let rs := p.host.started.filter fun r => r.fn = fn && r.gen ≠ but && !launch r
  let gone (i : Issue) : Bool := i.origin.isNone && rs.any fun r => isRec i.fn.val i.sq i.gen r
  let p : Part := { p with
    cleans := p.cleans.map fun k => { k with issue := k.issue.filter fun i => !gone i }
    sched := { p.sched with waits := p.sched.waits.filter fun w => !gone w.issue }
    step := { p.step with activate := p.step.activate.filter fun i => !gone i } }
  foldL rs p fun r p => p.endRec r stAborted 0

/-- The steps of VF_DESTROY after the function's kernels have ended. -/
def Part.destroyFn (p : Part) (fn : Nat) (dead : Bool) : Part :=
  let p := ((p.revoke scFn fn).abortFn fn 0).disableQueues fn
  let p := foldN 192 p fun q p => p.setGrant q fn false
  let p := if dead then p.deadWindows fn else p
  p.dropRecord fn

/-- The kernels of a function that have not ended. -/
def Part.fnKernels (p : Part) (fn : Nat) : List Nat := p.sched.order.filter fun k => ((p.kernel k).map fun x => decide (x.fn = fn)).getD false

/-- VF_DESTROY (R681): its steps in order; those after the first wait until the tiles of the kernels have ended. -/
def execVfDestroy (c : Issue) (vf : FnId) (deadWindows : Bool) (s : State) : Host.Outcome State Fault Refusal :=
  s.onPart fun p => p.command c 8 fun p =>
    if vf = 0 || !p.hasRecord vf then p.reply c stBadParam 0
    else
      let ks := p.fnKernels vf
      let p := if ks.isEmpty then p else (p.killFn vf).set1 SCHED_EVENTS_ABORTED
      if (p.fnKernels vf).isEmpty then (p.destroyFn vf deadWindows).reply c stOK 0
      else { p with sched := { p.sched with waits := p.sched.waits ++ [{ issue := c, kernels := ks, destroy := some (vf.val, deadWindows) }] } }

/-! ## The scheduler's check (R680–R686) -/

/-- A command that waited for kernels goes on when they have ended. -/
def Part.waitOver (p : Part) (w : KernelWait) : Part :=
  if w.kernels.any fun k => (p.kernel k).isSome then p
  else
    let p : Part := { p with sched := { p.sched with waits := p.sched.waits.filter fun x => x ≠ w } }
    let p := match w.destroy with
      | some (f, dead) => p.destroyFn f dead
      | none => p
    p.reply w.issue stOK 0

/-- SCHEDULER_CHECK (R682, R685, R686, R694): every 10 µs pods are charged and those that must give way for share are preempted; commands whose
kernels have ended complete. -/
def execSchedulerCheck (now : Nat) (s : State) : Host.Outcome State Fault Refusal :=
  s.onPart fun p =>
    let p := (p.at now).chargeAll
    let p := foldN 192 p fun q p => if p.shareOver q then p.preempt q else p
    foldL p.sched.waits p fun w p => p.waitOver w

/-! ## REVOKE (R463–R467) -/

/-- REVOKE (R403, R463–R466, R668): kinds 0 and 8–15 are refused. Scope FN also ends the function's kernels and its started commands; FN 0 releases
locked ways in which no PINNED window lies. -/
def execRevoke (c : Issue) (scope : BitVec 16) (s : State) : Host.Outcome State Fault Refusal :=
  s.onPart fun p => p.command c 32 fun p =>
    let kind := scope.toNat / 4096
    let id := scope.toNat % 4096
    if kind = 0 || 7 < kind then p.reply c stBadParam 0
    else
      let p := p.revoke kind id
      let p := if kind = scFn then (p.killFn id).abortFn id (if c.fn.val = id then c.gen else 0) else p
      let p := if kind = scFn && id = 0 && p.lockTo = p.lockL && 0 < p.lockL && !p.pinnedIn pinBase (p.lockL * 0x4000000) then p.unlock 0 else p
      p.reply c stOK 0

end Sys2Proof.Machine
end

