-- ==== Sys2Proof/Machine/Repair.lean ====
section
/-! DEFINITION. Machine/Repair.lean: faults that units meet, the repair flows, retirement, joins, the REPAIR command, what a boundary applies, fatal
errors, ageing (17, 18). -/

namespace Sys2Proof.Machine

def Part.modRepair (p : Part) (f : Repair → Repair) : Part := { p with repair := f p.repair }

/-! ## Fatal errors (R748) -/

/-- The part stops stepping, leaves its domain and sets FATAL; every meaning of `State.onPart` holds its state from then on. -/
def Part.goFatal (p : Part) (level kind unit code : Nat) : Part :=
  let p := p.log 3 level kind unit code 15 0
  let p := (p.wr GLOBAL_DEV_JOINED 0).wr GLOBAL_ELOG_STATUS_FATAL 1
  { p with step := { p.step with running := false }, mgmt := { p.mgmt with alive := false } }

/-! ## Tiles (R20–R22, R28–R31, R752–R754) -/

/-- The spare of a row is not in use and not about to be (R28, R30). -/
def Part.spareFree (p : Part) (d row : Nat) : Bool := p.bypassAt d row = 8 && (p.bypassNext d row).isNone && !p.repair.retiredDies.getLsbD d

/-- Physical column of a logical tile. -/
def Part.physColOf (p : Part) (t : Nat) : Nat := p.physId t % 17

/-- A repair waits for a boundary (R312). -/
def Part.pend (p : Part) (x : PendingRepair) : Part := p.modRepair fun q => { q with pending := q.pending ++ [x] }

/-- A log entry of the tile flow of R752; `o` owns the work that ended (R830). -/
def Part.tileLog (p : Part) (t action : Nat) (o : Owner := {}) : Part := p.log 2 1 1 t fTileEcc action (p.physColOf t) o

/-- The map-out of a tile is staged (R311, R752). -/
def Part.mapOut (p : Part) (t : Nat) (c : Option Issue) : Part :=
  (p.pend (.bypass (dieOf t) (rowOf t) (p.physColOf t) t c)).tileLog t 6

/-- A tile is reset; a kernel that ran there no longer does, a step in progress has faulted (R20, R22). -/
def Part.loseTile (p : Part) (t code : Nat) : Part :=
  match (p.tile t).work with
  | .kernel k => ((p.kernelFault k t code).resetTile t 1).leaveKernel t k
  | .step => ({ p with step := { p.step with faulted := true } } : Part).resetTile t 1
  | .idle => p.resetTile t 1

/-- TILE_ECC (R20–R22, R170, R175, R464, R752): the work on the tile ends, the tile is reset and tests itself. -/
def execTileEcc (t : TileId) (now : Nat) (s : State) : Host.Outcome State Fault Refusal :=
  s.onPart fun p =>
    let x := p.tile t
    if x.inReset || x.gated then p
    else
      let p := p.at now
      let again := (x.lastEcc.map fun e => decide (p.now < e + p.rd GLOBAL_REPAIR_CFG_TILE_UE_HOURS * hour)).getD false
      let o := if x.work = .idle then {} else p.tileOwner t
      let p := p.capture t 0 { code := fTileEcc } 0 false 0
      let p := (p.loseTile t fTileEcc).modTile t fun x => { x with inReset := true, testing := true, repeated := again, lastEcc := some p.now }
      (p.revoke scTile t).tileLog t 4 o

/-- The row of a tile has no spare left: the tile's pod will be retired, its router marked dead when it failed its own test (R754). -/
def Part.rowLost (p : Part) (t : Nat) (routerPass : Bool) (c : Option Issue) : Part :=
  let p := p.pend (.pod (podOf t) c)
  if routerPass then p else (p.modRepair fun q => { q with deadRouters := insNat q.deadRouters t }).setRouter t { p.router t with dead := true }

/-- The command that waits for a tile's self-test ends. -/
def Part.testReply (p : Part) (t : Nat) : Part := match p.repair.tests.find? fun e => e.1 = t with
  | none => p
  | some e => (p.modRepair fun q => { q with tests := q.tests.filter fun x => x.1 ≠ t }).reply e.2 stOK 0

/-- TILE_SELF_TEST_DONE (R30, R752–R754, R766, R768): the tile returns to service, is mapped out or its pod retired; with AUTO 0 a failing flow stops
there. -/
def execTileSelfTestDone (t : TileId) (pass routerPass : Bool) (now : Nat) (s : State) : Host.Outcome State Fault Refusal :=
  s.onPart fun p =>
    let x := p.tile t
    if !x.testing then p
    else
      let asked := p.repair.tests.any fun e => e.1 = t.val
      let auto := p.rd GLOBAL_REPAIR_CFG_AUTO = 1
      let p := (p.at now).modTile t fun x => { x with testing := false, swapped := false }
      let good := pass && !x.repeated
      let p :=
        if x.swapped then (if good then p.pend (.bypass (dieOf t) (rowOf t) 8 t none) else p)
        else if good && (auto || asked) then (p.modTile t fun x => { x with inReset := false }).tileLog t 5
        else if !auto then p
        else if p.spareFree (dieOf t) (rowOf t) then p.mapOut t none
        else p.rowLost t routerPass none
      p.testReply t

/-- A verdict that R312 admits arrives: tiles whose self-test still runs are mapped out where the spare is free (R753). -/
def Part.mapOutTesting (p : Part) : Part :=
  foldL p.tiles p fun c p =>
    if c.2.testing && c.2.inReset && !c.2.swapped && p.rd GLOBAL_REPAIR_CFG_AUTO = 1 && !(p.repair.tests.any fun e => e.1 = c.1) &&
        p.spareFree (dieOf c.1) (rowOf c.1) then (p.modTile c.1 fun x => { x with swapped := true }).mapOut c.1 none
    else p

/-! ## Retirement (R754, R760, R763, R766) -/

/-- A pod leaves the step pool and every grant; its kernels end with ABORTED (R680, R754). -/
def Part.retirePod (p : Part) (q : Nat) : Part :=
  let p := foldN 64 p fun f p => if (p.rd PD_GRANT_FN q).testBit f then (p.ungrant q f).1 else p
  (p.wr PD_CFG_STEP_POOL 0 q).modRepair fun x => { x with retiredPods := x.retiredPods ||| ((1 : PodMask) <<< q) }

/-- The tiles of retired pods are powered down (R760). -/
def Part.gateRetired (p : Part) (ts : List Nat) : Part :=
  foldL ts p fun t p => match (p.tile t).work with
    | .kernel k => (p.gateTileOff t (p.tile t).sb.length 2).leaveKernel t k
    | _ => p.gateTileOff t 0 0

/-- A die goes out of service (R706, R755, R760): its pods, tiles and routers, and its rail. -/
def Part.retireDie (p : Part) (d : Nat) : Part :=
  let qs := (List.range 16).map (16 * d + ·)
  let p := foldL qs p fun q p => p.retirePod q
  let p := p.gateRetired (qs.flatMap podTiles)
  let p := foldL (qs.flatMap podTiles) p fun t p => p.setRouter t { p.router t with dead := true }
  (p.wr PWR_RAIL1_TARGET_MV 0 0 d).modRepair fun x => { x with retiredDies := x.retiredDies ||| ((1 : BitVec 12) <<< d) }

/-- A repair command's reply at the boundary (R766). -/
def Part.repairReply (p : Part) (c : Option Issue) : Part := match c with
  | some c => p.reply c stOK p.tickNo
  | none => p

/-- A slice is remapped (R440, R455, R757, R758): what waited there goes on at the slice that now serves its lines. -/
def Part.remapSlice (p : Part) (s target : Nat) : Part :=
  let r := if p.rd LLC_STATUS_STATE target = 0 && target ≠ s then target else p.remapTarget s
  let p := p.cleanSlice s fun _ _ => true
  let p := foldL ((p.slice s).claims.map (·.line)) p fun l p => p.abortClaims s l 11 fun _ => true
  let z := p.slice s
  let p := foldL (z.waitWay ++ z.waitEntry ++ z.waitPin) p fun id p => match p.req id with
    | some q => p.setReq { q with state := .sent }
    | none => p
  let p := (p.setSlice s {}).wr LLC_STATUS_STATE 2 s
  let p := p.modRepair fun x => { x with sliceMap := mins (x.sliceMap.map fun c => (c.1, if c.2 = s then r else c.2)) s r }
  p.log 2 5 6 s 0 11 0

/-- A slice that still holds a miss entry or a pin when its remap is due waits for a later boundary. -/
def Part.remapReady (p : Part) (s : Nat) : Bool := (p.slice s).entries.isEmpty && (p.slice s).pins.isEmpty

/-- One repair is applied. -/
def Part.applyRepair (p : Part) (x : PendingRepair) : Part := match x with
  | .bypass d row o t c =>
    let p := p.modRepair fun q => { q with bypass := mput 8 q.bypass (16 * d + row) o }
    let p := if o = 8 then p else p.modTile t fun x => { x with inReset := false }
    (p.tileLog t (if o = 8 then 8 else 7)).repairReply c
  | .slice s r c => if p.remapReady s then (p.remapSlice s r).repairReply c else p.pend x
  | .pod q c => ((p.retirePod q).log 2 2 2 q 0 9 0).repairReply c
  | .region r c =>
    let p := foldL (regionPods r) p fun q p => p.retirePod q
    ((p.gateRetired (regionTiles r)).log 2 3 3 r 0 9 0).repairReply c
  | .die d c => ((p.retireDie d).log 2 4 4 d 0 9 0).repairReply c

/-- HBM_STATUS.STATE of a stack in service (R559). -/
def stInService := 2

/-- GLOBAL_INV as the repairs leave it (R66, R67). -/
def Part.updateInv (p : Part) : Part :=
  let spares := ((List.range 192).filter fun k => p.bypassAt (k / 16) (k % 16) = 8 && !p.repair.retiredDies.getLsbD (k / 16)).length
  let inServ := ((List.range 24).filter fun h => p.rd HBM_STATUS_STATE h = stInService).length
  let p := p.wr GLOBAL_INV_TILES_LIVE (3072 - 16 * (maskPods p.repair.retiredPods).length)
  let p := p.wr GLOBAL_INV_SPARES_FREE spares
  let p := p.wr GLOBAL_INV_SLICES_EN (256 - p.repair.sliceMap.length)
  p.wr GLOBAL_INV_STACKS_EN inServ

/-- Every repair that waits is applied, at a boundary R312 admits (R31, R311–R313, R757, R760). -/
def Part.applyRepairs (p : Part) : Part :=
  let xs := p.repair.pending
  (foldL xs (p.modRepair fun q => { q with pending := [] }) fun x p => p.applyRepair x).updateInv

/-- The repair records take what is in force (R750). -/
def Part.flushRecords (p : Part) (x : Serial) : Part × Serial :=
  let fatal (e : W64 × W64 × W64 × W64) : Bool := getB e.1 48 2 = 3
  let q := p.repair
  (p.modRepair fun r => { r with due := [] },
   { x with bypass := q.bypass, sliceMap := q.sliceMap, retiredPods := q.retiredPods, retiredDies := q.retiredDies, deadRouters := q.deadRouters,
            joins := q.joins, trims := q.trims, lostStack := p.hbm.lost, rows := p.hbm.remap,
            fatal := x.fatal ++ q.due.filter fatal, actions := x.actions ++ q.due.filter fun e => !fatal e })

/-! ## Regions, dies, tubers, rails (R38, R747, R748) -/

/-- The work on pods ends at once: kernels there with ABORTED, a step in progress has faulted; the tiles stay in reset (R680, R747). -/
def Part.losePods (p : Part) (qs : List Nat) : Part :=
  let p := foldL qs p fun q p => match (p.podRun q).kernel with
    | some k => (p.killKernel k).set1 SCHED_EVENTS_ABORTED
    | none => p
  let p := foldL (qs.flatMap podTiles) p fun t p => (p.loseTile t 0).modTile t fun x => { x with inReset := true }
  foldL qs p fun q p => p.revoke scPod q

/-- REGION_CLOCK_OR_DROOP_FAILURE (R747, R760). -/
def execRegionClockOrDroopFailure (r : RegionId) (now : Nat) (s : State) : Host.Outcome State Fault Refusal :=
  s.onPart fun p =>
    if (regionPods r).all (inMask p.repair.retiredPods) then p
    else (((p.at now).losePods (regionPods r)).log 2 3 3 r 0 0 0).pend (.region r none)

/-- A compute die fails (R747, R760). -/
def Part.dieFails (p : Part) (d : Nat) : Part :=
  if p.repair.retiredDies.getLsbD d then p
  else ((p.losePods ((List.range 16).map (16 * d + ·))).log 2 4 4 d 0 0 0).pend (.die d none)

/-- A tuber is lost: its resources are no longer available, and the device stops serving (R38, R748). -/
def Part.tuberLost (p : Part) (t : Nat) : Part := (p.wr GLOBAL_INV_TUBERS_EN (p.rd GLOBAL_INV_TUBERS_EN - 1)).goFatal 4 5 t 0

/-- CONTROL_COMPLEX_LOSS (R38, R747, R748): tuber 0 holds the primary control complex. -/
def execControlComplexLoss (t : TuberId) (now : Nat) (s : State) : Host.Outcome State Fault Refusal :=
  s.onPart fun p => let p := p.at now; if t = 0 then p.goFatal 5 15 p.dev 0 else p.tuberLost t

/-! ## Joins (R761–R763) -/

/-- Unit kinds of a bridge and of a bond bundle (R751). -/
def ukBridge := 9
def ukBond := 10

/-- A join is marked for re-selection at the next start (R762). -/
def Part.markJoin (p : Part) (kind join : Nat) : Part :=
  if p.repair.joins.contains (kind, join) then p
  else (p.modRepair fun q => { q with joins := q.joins ++ [(kind, join)] }).log 1 5 kind (join % 65536) 0 12 join

/-- POISONED_REPLY (R761, R762): the flit of request `id` is gone; a read comes back poisoned, a write is lost. -/
def execPoisonedReply (id join : Nat) (isBridge : Bool) (s : State) : Host.Outcome State Fault Refusal :=
  s.onPart fun p =>
    let p := p.markJoin (if isBridge then ukBridge else ukBond) join
    match p.req id with
    | none => p
    | some q =>
      if q.state ≠ .sent then p
      else if q.kind.returns then p.deliver q [] (some .poison)
      else (p.dropReq id).modTile q.tile fun x => match q.sb with
        | some e => x.sbDrop e
        | none => x

/-- BOND_SELF_TEST (R66, R762, R763): marked joins take spares; a tile or die whose bundle has none is taken out at once. -/
def execBondSelfTest (noSpareTiles : List TileId) (noSpareDies : List DieId) (s : State) : Host.Outcome State Fault Refusal :=
  s.onPart fun p =>
    if p.stage ≠ 7 then p
    else
      let p := p.modRepair fun q => { q with joins := q.joins.filter fun j => j.1 ≠ ukBond }
      let p := foldL noSpareTiles p fun t p =>
        if p.spareFree (dieOf t) (rowOf t) then (p.mapOut t none).applyRepairs else p.applyRepair (.pod (podOf t) none)
      (foldL noSpareDies p fun d p => p.applyRepair (.die d none)).updateInv

/-- BRIDGE_TEST (R762, R763): a marked bridge lane without a spare makes the start fatal. -/
def execBridgeTest (spareLeft : Bool) (s : State) : Host.Outcome State Fault Refusal :=
  s.onPart fun p =>
    if p.stage ≠ 7 then p
    else if !spareLeft then p.goFatal 5 15 p.dev 0
    else p.modRepair fun q => { q with joins := q.joins.filter fun j => j.1 ≠ ukBridge }

/-! ## REPAIR (R766) -/

/-- The action applies to the unit kind, and the unit exists. -/
def repairOk (kind unit action : Nat) : Bool := match kind with
  | 1 => unit < 3072 && 1 ≤ action && action ≤ 3
  | 2 => unit < 192 && action = 4
  | 3 => unit < 48 && action = 4
  | 4 => unit < 12 && action = 4
  | 6 => unit < 256 && action = 5
  | 9 => action = 6
  | 10 => action = 6
  | _ => false

/-- Whether a repair of the same unit waits. -/
def Part.waitsFor (p : Part) (f : PendingRepair → Bool) : Bool := p.repair.pending.any f

/-- The map-out of a tile waits for its boundary. -/
def Part.mapOutWaits (p : Part) (t : Nat) : Bool := p.waitsFor fun r => match r with
  | .bypass d row o u _ => d = dieOf t && row = rowOf t && u = t && o ≠ 8
  | _ => false

/-- The action on a tile. -/
def Part.repairTile (p : Part) (c : Issue) (t action : Nat) : Part :=
  let x := p.tile t
  let d := dieOf t
  let row := rowOf t
  match action with
  | 1 =>
    if x.testing || x.work ≠ .idle then p.reply c stBadState 0
    else ((p.resetTile t 1).modTile t fun x => { x with inReset := true, testing := true, repeated := false }).modRepair fun q =>
      { q with tests := q.tests ++ [(t, c)] }
  | 2 =>
    if p.mapOutWaits t then p.reply c stBadState 0
    else if p.spareFree d row then p.mapOut t (some c) else p.reply c stNoResource 0
  | _ =>
    if p.bypassAt d row = 8 || (p.bypassNext d row).isSome then p.reply c stBadState 0 else p.pend (.bypass d row 8 t (some c))

/-- REPAIR (R312, R757, R760, R762, R766). -/
def execRepair (c : Issue) (kind unit action join : Nat) (s : State) : Host.Outcome State Fault Refusal :=
  s.onPart fun p => p.command c 39 fun p =>
    if !repairOk kind unit action then p.reply c stBadParam 0
    else match kind with
    | 1 => p.repairTile c unit action
    | 2 =>
      if inMask p.repair.retiredPods unit || p.waitsFor (fun x => match x with | .pod q _ => q = unit | _ => false) then p.reply c stBadState 0
      else p.pend (.pod unit (some c))
    | 3 =>
      if (regionPods unit).all (inMask p.repair.retiredPods) || p.waitsFor (fun x => match x with | .region r _ => r = unit | _ => false) then
        p.reply c stBadState 0
      else p.pend (.region unit (some c))
    | 4 =>
      if p.repair.retiredDies.getLsbD unit || p.waitsFor (fun x => match x with | .die d _ => d = unit | _ => false) then p.reply c stBadState 0
      else p.pend (.die unit (some c))
    | 6 => if p.rd LLC_STATUS_STATE unit ≠ 0 then p.reply c stBadState 0 else (p.wr LLC_STATUS_STATE 1 unit).startClean (.remap unit) (some c)
    | _ => if p.repair.joins.contains (kind, join) then p.reply c stBadState 0 else (p.markJoin kind join).reply c stOK 0

/-! ## Ageing (R729, R756) -/

/-- A region measures its slack (in ps): below the floor of the configuration its trim rises by 2.5 mV; at 50 mV the tile beside the worst monitor is
mapped out, or the region barred from boost. -/
def Part.ageRegion (p : Part) (r slack : Nat) : Part :=
  let p := p.wr RGN_TRIM_SLACK_PS (min slack 65535) r
  let old := p.rd RGN_TRIM_TRIM_MV r
  if p.boot.cfg.slackFloor ≤ slack || 100 ≤ old then p
  else
    let v := min 100 (old + 5)
    let p := (p.wr RGN_TRIM_TRIM_MV v r).modRepair fun q => { q with trims := mput 0 q.trims r v }
    if v < 100 then p
    else
      let t := (regionTiles r).getD (p.free.toNat % 64) 0
      let p := p.nextFree
      if p.spareFree (dieOf t) (rowOf t) then (p.mapOut t none).modRepair fun q => { q with trims := mput 0 q.trims r 0 }
      else (p.modRegion r fun g => { g with noBoost := true }).log 0 3 3 r 0 1 0

/-- AGEING_CHECK (R705, R729, R756). -/
def execAgeingCheck (slacks : List (RegionId × Nat)) (now : Nat) (s : State) : Host.Outcome State Fault Refusal :=
  s.onPart fun p => (foldL slacks (p.at now) fun c p => p.ageRegion c.1 c.2).settleClocks

end Sys2Proof.Machine
end

