-- ==== Sys2Proof/Machine/StepOps.lean ====
section
/-! DEFINITION. Machine/StepOps.lean: what happens to a step: its snapshot, its start on tiles and routers, its completion, commit and abandonment, and
an image that becomes active (02, 06). -/

namespace Sys2Proof.Machine

def Part.modStep (p : Part) (f : Step → Step) : Part := { p with step := f p.step }
def Part.modTick (p : Part) (f : Tick → Tick) : Part := { p with tick := f p.tick }

/-- An attempt of the step is under way and not complete. -/
def Part.stepGoes (p : Part) : Bool := p.step.running && !p.step.complete

/-! ## Pods of the step (R100) -/

/-- A pod of the step that nothing else still uses carries the step program's owner tag. -/
def Part.takePod (p : Part) (q : Nat) : Part := if p.podState q = 0 then p.setOwner q 2 0 0 else p

/-- At the end of the step phase the step's pods return to their owners. -/
def Part.returnPods (p : Part) : Part := foldL p.stepPods p fun q p => if p.rd PD_STATUS_OWNER_KIND q = 2 then p.freePod q else p

/-! ## Snapshot (R102, R835) -/

/-- One sector of the committed bank is copied into the working bank, with its poison. -/
def Part.copySector (p : Part) (k : Nat) : Part :=
  let a := p.seqBase + 64 * k
  let w := p.workBase + 64 * k
  let (p, bs, m) := p.readSector a
  let p := p.storeNow w (bs.mapIdx fun i b => (w + i, b))
  if m = some .poison then { p with poison := insNat p.poison (p.phys w) } else p

/-- The entry of a slot in a bank. -/
def Part.entryHead (p : Part) (bank slot : Nat) : SeqHead := seqHead (leNat ((p.seqBytes bank slot).take 8))

/-- The step runs a slot: its copied entry is LIVE, not HOLD, not FAULTED, and carries no poison. -/
def Part.slotRuns (p : Part) (slot : Nat) : Bool := (p.entryHead p.workBase slot).runs && !p.poisoned (p.phys (p.workBase + 32 * slot))

/-- The committed bank is copied into the working bank; the slots the step runs, with their functions, are noted. -/
def Part.snapshot (p : Part) : Part :=
  let p := foldN 2048 p fun k p => p.copySector k
  let runs := (List.range 4096).filter p.slotRuns
  p.modStep fun x => { x with runs, slotPages := [], vfs := runs.foldl (fun m k => mput 0 m k (p.entryHead p.workBase k).vf) [] }

/-- A new attempt of the active image's step begins at this boundary (R102, R110, R113): its streams start at STEP_START. -/
def Part.startAttempt (p : Part) : Part :=
  let late := p.stepPods.any fun q => p.podState q ≠ 0
  let p := p.modStep fun x => { x with running := true, started := false, complete := false, faulted := false, bound := p.now, late, gates := 0, gatesLeft := 0,
                                       opening := false, streams := [], done := [] }
  foldL p.stepPods p.snapshot fun q p => p.takePod q

/-! ## Start (R83, R84, R89, R92, R139, R284) -/

/-- A router at step start: slot 0 of its active bank. A dead router runs nothing. -/
def Router.begin_ (r : Router) : Router :=
  { r with state := if r.dead then .ended else .running, slot := 0, cur := none, left := 0, loops := [], cycle := 0 }

/-- A stream starts on its tile as one block (R89), or breaks the limits of R137 (R139). -/
def Part.startStream (p : Part) (im : Image) (t : Nat) : Part :=
  let h := p.streamHdr im t
  let p := p.startTile t (hdrL1 h) .step
  let ch (c : Nat) : WeightCh := { queue := p.tileWeights im t c }
  let p := p.modTile t fun x => { x with weights := mput {} (mput {} [] 0 (ch 0)) 1 (ch 1) }
  if residentBlocks (hdrGroups h) (hdrRegs h) (hdrLocal h) (scratchOf (hdrL1 h)) = 0 then
    (p.capture t 0 { code := fResource } 0 true 0).endWork t fResource 0
  else p.placeBlock t 0 (hdrGroups h) (hdrRegs h) (hdrLocal h) (BitVec.ofNat 48 (p.streamPc im t))

/-- The tiles of an image that run a stream. -/
def Part.streamTiles (p : Part) (im : Image) : List Nat := im.tiles.filter fun t => p.streamOff im t ≠ 0

/-- A tile's streams, channels and ready count at step start (R92, R297, R298). -/
def Tile.quiet (x : Tile) : Tile :=
  { x with streams := [], stagedStreams := [], openStreams := [], weights := [], ready := 0, readyOut := false }

/-- Streams, weight channels and schedules start. -/
def Part.startStreams (p : Part) (im : Image) : Part :=
  let ts := p.streamTiles im
  let lost := (maskPods im.pods).any (inMask p.repair.retiredPods)
  let p := p.modStep fun x => { x with started := true, startAt := p.now, streams := ts, faulted := lost }
  let p : Part := { p with flits := [], tiles := p.tiles.map fun c => (c.1, c.2.quiet) }
  let p := foldL ts p fun t p => p.startStream im t
  foldN 3072 p fun t p => p.setRouter t (p.router t).begin_

/-! ## Completion (R85, R95, R100, R110) -/

/-- STEP_STATE (R122). -/
def Part.showStep (p : Part) (n : Nat) : Part := p.wr TICK_STATUS_STEP_STATE n

/-- The part is in the open phase: its operating points apply. -/
def Part.openPhase (p : Part) : Part := ((p.modTick fun x => { x with phase := .opened }).endHints).applyPhase 1

/-- The time of an attempt's work on its pods since it started is counted, in pod-microseconds, the remainder under key 1,024 (R699). -/
def Part.chargeStep (p : Part) : Part :=
  if !p.stepGoes || !p.step.started then p
  else
    let d := mget 0 p.sched.frac 1024 + p.stepPods.length * (p.now - p.step.startAt)
    ({ p with sched := { p.sched with frac := mput 0 p.sched.frac 1024 (d % 10000) } } : Part).inc SCHED_STATUS_STEP_PODUS (d / 10000)

/-- The step is complete: its tiles are free, its pods return, and the open phase begins unless the guard window has. -/
def Part.completeStep (p : Part) : Part :=
  let p := p.chargeStep
  let p := foldL p.step.streams p fun t p => if (p.tile t).work = .step then p.modTile t Tile.clearWork else p
  let p := p.returnPods.modStep fun x => { x with complete := true }
  let p := p.wr TICK_STEP_LAST_STEP_US (min ((p.now - p.step.bound) / 10000) (2 ^ 20 - 1))
  let p := if p.rd TICK_STATUS_STEP_STATE = 4 then p else p.showStep 2
  if p.tick.phase = .guard then p.endHints else p.openPhase

/-! ## Commit (R104–R106, R830, R835) -/

/-- A slot is committed as faulted with code `c`. -/
def Part.commitFault (p : Part) (k c : Nat) : Part :=
  let a := p.seqBase + 32 * k
  let w0 : W64 := BitVec.ofNat 64 (leNat ((p.seqBytes p.seqBase k).take 8))
  let p := p.storeRange a (leBytes 8 (setB w0 2 1 1).toNat)
  (p.storeRange (a + 28) (leBytes 2 c)).log 2 0 14 k c 0 (mget 0 p.step.slotPages k) { origin := 0, unit := 0, fn := 0, step := true }

/-- The commit of one slot the step ran. -/
def Part.commitSlot (p : Part) (k : Nat) : Part :=
  let w := p.seqBytes p.workBase k
  let c := p.seqBytes p.seqBase k
  let a := p.seqBase + 32 * k
  let code := if p.poisoned (p.phys (p.workBase + 32 * k)) then fPoison else leAt w 28 2
  if code ≠ 0 then p.commitFault k code
  else if (seqHead (leAt w 0 8)).replay then p
  else
    let w0 : W64 := BitVec.ofNat 64 (leAt w 0 8)
    let c0 : W64 := BitVec.ofNat 64 (leAt c 0 8)
    let n := setB (setB c0 2 2 (getB w0 2 2)) 32 32 (getB w0 32 32)
    (p.storeRange a (leBytes 8 n.toNat)).storeRange (a + 24) (Sys2Proof.Machine.slice w 24 6)

/-- The commit: the sequence table takes what the step wrote, and the attempt is over. -/
def Part.commitStep (p : Part) : Part :=
  let p := if p.step.running then foldL p.step.runs p fun k p => p.commitSlot k else p
  p.modStep fun x => { x with running := false, runs := [] }

/-! ## Abandon (R112, R114, R116) -/

/-- A request of a tile that has left it and taken effect nowhere yet, or whose reply nobody waits for. -/
def Req.dropped (q : Req) : Bool := q.state ≠ .waiting

/-- Step work on a tile halts: results of its matrix operations are dropped, its store buffer is discarded. -/
def Part.stopStepTile (p : Part) (t : Nat) : Part :=
  let p := p.clearGroups t
  let p : Part := { p with net := p.net.filter fun q => !(q.tile = t && q.dropped) }
  p.modTile t fun x => { x.clearWork with sb := [], ops := [], weights := [] }

/-- The step stops on this device: the owner tag's resources are revoked, FINAL writes held for its streams discarded. -/
def Part.stopStep (p : Part) : Part :=
  if !p.step.running then p
  else
    let p := p.chargeStep.revoke scStep 0
    let p := foldL p.step.streams p fun t p => if (p.tile t).work = .step then p.stopStepTile t else p
    let p := p.returnPods.endHints
    let p : Part := { p with domain := { p.domain with finals := p.domain.finals.filter fun f => !f.key.step } }
    p.modStep fun x => { x with running := false, started := false, complete := false, opening := false, runs := [] }

/-! ## Activation (R98, R99, R318, R663, R709, R840) -/

/-- The routers take their staging banks. -/
def Router.swap (r : Router) : Router := match r.staging with
  | some b => { r with bank := b, staging := none, which := !r.which }
  | none => r

/-- A router silenced by an uncorrectable schedule read has its bank loaded again. -/
def Part.reloadSilent (p : Part) : Part := match p.step.active with
  | none => p
  | some im => foldL p.routers p fun c p => if c.2.state = .silent then p.setRouter c.1 { c.2 with bank := p.schedule im c.1, state := .stopped } else p

/-- The initial sequence table of an image: its entries, and zero in every slot without one. -/
def Part.initialTable (p : Part) (im : Image) : List Byte :=
  let bs := p.bytesAt (im.addr + im.off secSeq + 8) (32 * im.seqCount)
  bs ++ List.replicate (0x20000 - bs.length) 0

/-- The staged image becomes active; its STEP_ACTIVATE completes with the tick number. -/
def Part.activateImage (p : Part) : Part := match p.step.staged, p.step.activate with
  | some im, some c =>
    let p : Part := { p with routers := p.routers.map fun r => (r.1, r.2.swap) }
    let a := p.seqAddr im
    let p := ((p.wr TICK_IMAGE_ACTIVE_ID im.id).wr TICK_IMAGE_STAGED_ID 0).wr TICK_SEQ_BASE (a / 256)
    let p := if im.keep then p else p.storeRange a (p.initialTable im)
    let pts := (im.tiles.mapIdx fun i t => (i, t)).foldl (fun m c => mput 0 m c.2 (p.pointAt im c.1)) []
    let p := p.modPower fun w => { w with tileOpp := pts }
    let hints := (List.range im.hintCount).map (p.hintAt im)
    let p := p.modStep fun x => { x with active := some im, staged := none, activate := none, halted := false, running := false, complete := false, hints }
    let p := (p.wr TICK_STATUS_ABANDON_COUNT 0).wr TICK_STATUS_STRETCH_COUNT 0
    (p.set1 TICK_EVENTS_IMAGE_ACTIVATED).reply c stOK p.tickNo
  | _, _ => p

end Sys2Proof.Machine
end

