-- ==== Sys2Proof/Machine/Remote.lean ====
section
/-! DEFINITION. Machine/Remote.lean: remote and ingest requests at their target, and the replies at the sender (10, 13). -/

namespace Sys2Proof.Machine

def Part.modDomain (p : Part) (f : Domain → Domain) : Part := { p with domain := f p.domain }

/-! ## Admission at the target (R54, R371, R595, R597, R605, R606) -/

/-- A port that an ingest writer uses. -/
def Part.ingestUp (p : Part) (i : Nat) : Bool := p.rd BLK_STATUS_STATE i = 6 && p.rd BLK_CFG_MODE i = 2

/-- The port carries such a request now. -/
def Part.arrives (p : Part) (r : RemoteReq) : Bool :=
  if r.key.ingest then p.ingestUp r.port && r.key.sender = r.port.val else p.portUp r.port && r.key.sender < 64

/-- The stream key of a request: an ingest writer supplies its SID alone (R606). -/
def Part.rxKey (p : Part) (r : RemoteReq) : RemoteKey :=
  if r.key.ingest then { r.key with fn := Fin.ofNat 64 (p.rd BLK_INGEST_FN r.port), step := false } else r.key

/-- A range lies within the Husk's ingest windows of a port. -/
def Part.huskIngest (p : Part) (i a n : Nat) : Bool := (List.range 4).any fun j =>
  p.rd HUSK_INGEST_WIN0_VALID 0 (4 * (i - 15) + j) = 1 && decide (p.rd HUSK_INGEST_WIN0_BASE 0 (4 * (i - 15) + j) ≤ a) &&
  decide (a + n ≤ p.rd HUSK_INGEST_WIN0_BASE 0 (4 * (i - 15) + j) + 65536 * p.rd HUSK_INGEST_WIN1_SIZE_64K 0 (4 * (i - 15) + j))

/-- The target performs the request (R597, R605). -/
def Part.remoteOk (p : Part) (r : RemoteReq) (write : Bool) : Bool :=
  p.hasHome r.addr && decide (r.len ≠ 0) &&
  (if r.key.ingest then
    p.rd BLK_INGEST_BOUND r.port = 1 && p.huskIngest r.port r.addr r.len &&
    (match p.winOpen r.addr with
      | none => false
      | some w => p.covers w (r.addr + r.len - 1) && p.rd LLC_WIN_ATTR_INGEST 0 w = 1 && (p.winGrant w).testBit (p.rd BLK_INGEST_FN r.port))
  else p.granted (if r.key.step then 0 else r.key.fn.val) r.addr r.len write)

/-- A request from a device that is no member: dropped (R595). -/
def Part.foreign (p : Part) (r : RemoteReq) : Bool := !r.key.ingest && !p.member r.key.sender
def Part.nonMember (p : Part) (r : RemoteReq) : Part := p.set1 BLK_EVENTS_NON_MEMBER r.port

/-- A denied request is counted, and the first one captured (R597, R613). -/
def Part.deny (p : Part) (r : RemoteReq) : Part :=
  let p := (p.inc BLK_DENIED_COUNT 1 r.port).set1 BLK_EVENTS_RX_DENIED r.port
  if p.rd BLK_DENIED_ADDR_VALID r.port = 1 then p
  else
    let p := (p.wr BLK_DENIED_SENDER r.key.sender r.port).wr BLK_DENIED_FN (p.rxKey r).fn r.port
    (p.wr BLK_DENIED_ADDR_ADDR r.addr r.port).set1 BLK_DENIED_ADDR_VALID r.port

/-- Where a reply goes: the sending device, or 64 plus the port of an ingest writer. -/
def replyTo (r : RemoteReq) : Nat := if r.key.ingest then 64 + r.port.val else r.key.sender

/-- A reply to a request is sent. -/
def Part.answer (p : Part) (r : RemoteReq) (o : Out) : Part :=
  if r.key.ingest then (if p.canSend r.port true then p.sendPort r.port true else p).emit o else p.sendData r.key.sender o

/-! ## Numbers already performed (R589) -/

/-- 32-bit number `a` comes before `b`. -/
def seqBefore (a b : Nat) : Bool := a ≠ b && (b + 2 ^ 32 - a) % 2 ^ 32 < 2 ^ 31

/-- The lowest number not performed moves on over the performed ones. -/
def PeerSeq.settle : Nat → PeerSeq → PeerSeq
  | 0, x => x
  | n + 1, x => if x.done.contains x.low then PeerSeq.settle n { low := (x.low + 1) % 2 ^ 32, done := x.done.filter (· ≠ x.low) } else x

def PeerSeq.take (x : PeerSeq) (n : Nat) : PeerSeq :=
  if seqBefore n x.low then x else ({ x with done := insNat x.done n } : PeerSeq).settle (x.done.length + 1)

def Part.peer (p : Part) (d : Nat) : PeerSeq := mget {} p.domain.peers d

/-- The message has been performed before; an ingest writer numbers nothing end to end. -/
def Part.repeated (p : Part) (r : RemoteReq) : Bool :=
  !r.key.ingest && (seqBefore r.seq (p.peer r.key.sender).low || (p.peer r.key.sender).done.contains r.seq)

/-- The message's number has been taken. -/
def Part.taken (p : Part) (r : RemoteReq) : Part :=
  if r.key.ingest then p else p.modDomain fun d => { d with peers := mput {} d.peers r.key.sender ((p.peer r.key.sender).take r.seq) }

/-! ## Stream keys and FINAL writes (R497, R499, R601) -/

/-- Numbers of a key's performed writes that no FINAL has counted. -/
def Part.keyDone (p : Part) (k : RemoteKey) : List Nat := ((p.domain.recvKeys.find? fun c => c.1 = k).map (·.2)).getD []

def Part.setKeyDone (p : Part) (k : RemoteKey) (l : List Nat) : Part := p.modDomain fun d =>
  let rest := d.recvKeys.filter fun c => c.1 ≠ k
  { d with recvKeys := if l.isEmpty then rest else rest ++ [(k, l)] }

/-- HELD_FINAL and KEYS of the ingest ports (R613). -/
def Part.showIngest (p : Part) : Part := foldL [15, 16, 17] p fun i p =>
  let mine (k : RemoteKey) : Bool := k.ingest && k.sender = i
  (p.wr BLK_INGEST_HELD_FINAL (min 256 (p.domain.finals.filter fun f => mine f.key).length) i).wr BLK_INGEST_KEYS
    (min 4096 (p.domain.recvKeys.filter fun c => mine c.1).length) i

/-- A held FINAL write can be performed: as many earlier writes of its key as it carries are, and no earlier FINAL of the key is held. -/
def Part.finalReady (p : Part) (f : HeldFinal) : Bool :=
  decide (f.count ≤ ((p.keyDone f.key).filter fun n => seqBefore n f.seq).length) &&
  !(p.domain.finals.any fun g => g.key = f.key && seqBefore g.seq f.seq)

/-- A write of a key has been performed: it counts for the next FINAL; a FINAL has counted those before it. -/
def Part.keyWrote (p : Part) (k : RemoteKey) (seq : Nat) (final : Bool) : Part :=
  if final then p.setKeyDone k ((p.keyDone k).filter fun n => !seqBefore n seq) else p.setKeyDone k (p.keyDone k ++ [seq])

/-- The receiver takes no further key or FINAL write: the link holds the message back (R499). -/
def Part.keysFull (p : Part) (k : RemoteKey) : Bool := (p.keyDone k).isEmpty && decide (4096 ≤ p.domain.recvKeys.length)

/-! ## Writes (R414, R472, R543, R596) -/

/-- A sector of a DEGRADED window has been rewritten in full by an ingest writer: with the last one of the failed blocks DEGRADED is clear. -/
def Part.ingestRewrote (p : Part) (a : Nat) : Part :=
  let b := a / 4096 * 4096
  match p.hbm.failed.find? fun c => c.2.1 = b with
  | none => p
  | some (w, _, m) =>
    let m := m ||| ((1 : W64) <<< (a % 4096 / 64))
    let rest := p.hbm.failed.filter fun c => c.2.1 ≠ b
    let p : Part := { p with hbm := { p.hbm with failed := if m = 0xFFFFFFFFFFFFFFFF then rest else rest ++ [(w, b, m)] } }
    if p.hbm.failed.any fun c => c.1 = w then p else (p.wr LLC_WIN_ATTR_DEGRADED 0 0 w).event 0 0x202 w

/-- The bytes of sector `k` that a store writes, by address. -/
def sectorCells (a k : Nat) (data : List Byte) (mask : List Bool) : List (Nat × Byte) :=
  ((List.range 64).filter fun i => mask.getD (64 * k + i) true).map fun i => (a + 64 * k + i, data.getD (64 * k + i) 0)

/-- An operation on a sector at its home slice, once the line is there. -/
def Part.atHome (p : Part) (a : Nat) (f : Part → Part) (m : Met := {}) : Part :=
  (f (p.homeLine (p.served a) (sectorOf a) false m)).unheld (p.served a) (lineOf a)

/-- A remote write is performed at the home slices of its sectors. -/
def Part.remoteWrite (p : Part) (a n : Nat) (ingest : Bool) (w : RemoteWrite) (m : Met) : Part := match w with
  | .store data mask => foldN (n / 64) p fun k p =>
    let cells := sectorCells a k data mask
    let p := if cells.isEmpty then p else p.storeNow (a + 64 * k) cells m
    if ingest && cells.length = 64 then p.ingestRewrote (a + 64 * k) else p
  | .red op ty lanes => p.atHome a (m := m) fun p =>
    (p.performAtomic (p.served a) (sectorOf a) op ty false false
      (lanes.mapIdx fun i c => ({ lane := i, addr := sectorOf a + c.1, reg := 0, val := c.2 } : LaneAcc))).1

/-- A line of a range is under a lease of some other holder (R444). -/
def Part.leasedRange (p : Part) (a n : Nat) (free : Lease → Bool) : Bool := (List.range (n / 256 + 2)).any fun i =>
  let l := lineOf a + 256 * i
  decide (l < a + n) && (p.slice (p.served l)).leases.any fun e => e.line = l && !free e

/-- WR (R54, R371, R444, R495–R501, R589, R595, R597, R601, R605): a remote or ingest write arrives at its target.
`err` is what HBM finds in sector number `errSector` where a part of it is written and the slice does not hold it. -/
def execWr (r : RemoteReq) (w : RemoteWrite) (final : Option Nat) (err : EccErr) (errSector : Fin 16) (s : State) : Host.Outcome State Fault Refusal :=
  s.onPart fun p =>
    let k := p.rxKey r
    if !p.arrives r then p
    else if p.foreign r then p.nonMember r
    else if !p.remoteOk r true then ((p.deny r).taken r).answer r (.ackMsg (replyTo r) r.seq true)
    else if p.domain.finals.any fun f => f.key = k && f.seq = r.seq then p
    else if p.repeated r then p.answer r (.ackMsg (replyTo r) r.seq false)
    else if p.keysFull k || p.leasedRange r.addr r.len fun _ => false then p
    else
      let f : HeldFinal := { key := k, port := r.port, count := final.getD 0, seq := r.seq, addr := r.addr, len := r.len, write := w }
      if final.isSome && !p.finalReady f then
        if 256 ≤ p.domain.finals.length then p else (p.modDomain fun d => { d with finals := d.finals ++ [f] }).showIngest
      else
        ((((p.remoteWrite r.addr r.len r.key.ingest w (p.meets (r.addr + 64 * errSector) err)).keyWrote k r.seq final.isSome).taken r).showIngest).answer r (.ackMsg (replyTo r) r.seq false)

/-- FINAL_PERFORM (R497, R601): a held FINAL write of a key, once the writes it waits for are performed. -/
def execFinalPerform (key : RemoteKey) (err : EccErr) (errSector : Fin 16) (s : State) : Host.Outcome State Fault Refusal :=
  s.onPart fun p => match p.domain.finals.find? fun f => f.key = key && p.finalReady f with
    | none => p
    | some f =>
      if p.leasedRange f.addr f.len fun _ => false then p
      else
        let r : RemoteReq := { port := Fin.ofNat 18 f.port, key := f.key, seq := f.seq, addr := f.addr, len := f.len }
        let p := p.modDomain fun d => { d with finals := d.finals.filter (· ≠ f) }
        ((((p.remoteWrite f.addr f.len f.key.ingest f.write (p.meets (f.addr + 64 * errSector) err)).keyWrote f.key f.seq true).taken r).showIngest).answer r (.ackMsg (replyTo r) r.seq false)

/-! ## Reads and atomics (R429, R438, R439, R596, R600) -/

/-- RD (R392, R596, R597, R600): the sectors of the range with their marks, or DENIED. `err` is what the slice or HBM finds in sector
number `errSector`. -/
def execRd (r : RemoteReq) (err : EccErr) (errSector : Fin 16) (s : State) : Host.Outcome State Fault Refusal :=
  s.onPart fun p =>
    if !p.arrives r then p
    else if p.foreign r then p.nonMember r
    else if !p.remoteOk r false then ((p.deny r).taken r).answer r (.rdataMsg (replyTo r) r.seq [] [] [] true)
    else
      let (p, bs, pois, dead) := (List.range (r.len / 64)).foldl (fun (q : Part × List Byte × List Bool × List Bool) k =>
        let (p, bs, m) := q.1.readSector (r.addr + 64 * k) (p.meets (r.addr + 64 * errSector) err)
        (p, q.2.1 ++ bs, q.2.2.1 ++ [decide (m = some .poison)], q.2.2.2 ++ [decide (m = some .deadRead)])) (p, [], [], [])
      (p.taken r).answer r (.rdataMsg (replyTo r) r.seq bs pois dead false)

/-- The request a remote atomic makes at its home slice, on behalf of a thread group of the sender. -/
def remoteAmoReq (id : Nat) (r : RemoteReq) (k : AmoKind) (holder : Nat) (lanes : List AmoLane) : Req :=
  let kind : ReqKind := match k with
    | .atom op ty => .atomic op ty false true
    | .cas ty => .atomic .swap ty true true
    | .ldrsv wide holds => .ldrsv wide holds
    | .stcnd wide => .stcnd wide
  { id, tile := remoteHolder r.key.sender r.key.step (holder / 16), group := holder % 16, kind, sector := sectorOf r.addr, dev := none, lanes :=
      lanes.map fun c => ({ lane := c.lane, addr := sectorOf r.addr + c.off, reg := 0, val := c.val, cmp := c.cmp } : LaneAcc) }

/-- A request is served at its home slice at once; what it answers. -/
def Part.serveNow (p : Part) (q : Req) (err : EccErr := .ok) : Part × Req :=
  let s := p.served q.sector
  let p := p.send q
  let p := p.atHome q.sector (m := p.meets q.sector err) fun p => match q.kind with
    | .atomic op ty cas ret => p.serveAtomic s q op ty cas ret
    | .ldrsv wide holds => p.serveLdrsv s q wide holds
    | .stcnd wide => p.serveStcnd s q wide
    | _ => p
  (p.dropReq q.id, (p.req q.id).getD q)

/-- AMO (R429, R444, R589, R596, R597, R604): a remote atomic arrives at its target. `holder` names the sender's thread group (16 × tile + group slot),
which a reservation belongs to. -/
def execAmo (r : RemoteReq) (k : AmoKind) (holder : Nat) (lanes : List AmoLane) (err : EccErr) (s : State) : Host.Outcome State Fault Refusal :=
  s.onPart fun p =>
    if !p.arrives r then p
    else if r.key.ingest then p.set1 BLK_EVENTS_FOREIGN_CTRL r.port
    else if p.foreign r then p.nonMember r
    else if !p.remoteOk r true then ((p.deny r).taken r).answer r (.rdataMsg (replyTo r) r.seq [] [] [] true)
    else if p.repeated r then p.answer r (.ackMsg (replyTo r) r.seq false)
    else
      let q := remoteAmoReq p.nextId r k holder lanes
      if p.leasedRange r.addr 64 fun e => e.tile = q.tile && e.group = q.group then p
      else
        let (p, a) := p.serveNow q err
        (p.taken r).answer r (.rdataMsg (replyTo r) r.seq (a.vals.flatMap fun v => leBytes 8 v.2.toNat) [decide (a.mark = some .poison)]
          [decide (a.mark = some .deadRead)] false)

/-! ## Replies at the sender (R500, R598–R600) -/

/-- A write of a tile was refused by its target: a kernel's command will end with REMOTE_DENIED, a step has faulted (R598). -/
def Part.writeDenied (p : Part) (t : Nat) : Part := match (p.tile t).work with
  | .kernel k => match p.kernel k with
    | some x => p.setKernel k (some { x with denied := true })
    | none => p
  | .step => p.modStep fun x => { x with faulted := true }
  | .idle => p

/-- ACK (R500, R598): the acknowledgement of a remote write reaches the tile that sent it. -/
def execAck (dev : DevId) (seq : Nat) (denied : Bool) (s : State) : Host.Outcome State Fault Refusal :=
  s.onPart fun p => match p.tiles.find? fun c => c.2.unacked.any fun u => u.dev = dev.val && u.seq = seq with
    | none => p
    | some (t, _) =>
      let p := p.modTile t fun x => { x with unacked := x.unacked.filter fun u => !(u.dev = dev.val && u.seq = seq) }
      if denied then p.writeDenied t else p

/-- An outstanding remote read or atomic. -/
def Part.remoteOut (p : Part) (id : Nat) : Option Req := (p.req id).filter fun q => q.dev.isSome && q.state = .sent

/-- RDATA (R165, R392, R598, R600): data or lane values of a remote read or atomic, or the mark its registers take. -/
def execRdata (id : Nat) (data : List Byte) (poison dead denied : Bool) (s : State) : Host.Outcome State Fault Refusal :=
  s.onPart fun p => match p.remoteOut id with
    | none => p
    | some q =>
      let m : Option RegMark := if denied then some .remoteDenied else if dead then some .deadRead else if poison then some .poison else none
      let vals := q.lanes.mapIdx fun i c => (c.lane, BitVec.ofNat 64 (leAt data (8 * i) 8))
      p.deliver { q with vals } data m

/-- REMOTE_LOST_TIMEOUT (R517, R599): no answer within REMOTE_US of the request's sending. -/
def execRemoteLostTimeout (id : Nat) (s : State) : Host.Outcome State Fault Refusal :=
  s.onPart fun p => match p.remoteOut id with
    | none => p
    | some q => (p.at (q.sentAt + us (max 10 (p.rd GLOBAL_FENCE_CFG_REMOTE_US)))).deliver q [] (some .remoteLost)

end Sys2Proof.Machine
end

