-- ==== Sys2Proof/Machine/Bellith.lean ====
section
/-! DEFINITION. Machine/Bellith.lean: a Bellith port's training, lanes, flits, retry and credits (13). -/

namespace Sys2Proof.Machine

/-- States of R567. -/
def psProbe := 1
def psLaneId := 2
def psEq := 3
def psHandshake := 4
def psLinkUp := 5
def psActive := 6
def psRetrain := 7
def psDown := 8
def psBlocked := 9

def Part.portState (p : Part) (i : Nat) : Nat := p.rd BLK_STATUS_STATE i
def Part.modPort (p : Part) (i : Nat) (f : Port → Port) : Part := p.setPort i (f (p.port i))

/-! ## Leaving ACTIVE (R571, R578, R588, R607) -/

/-- FINAL writes held under some keys are discarded, one lost-write entry for each key (R505, R518, R607). -/
def Part.dropFinals (p : Part) (mine : RemoteKey → Bool) (peer origin unit : Nat) : Part :=
  let fs := p.domain.finals.filter fun f => mine f.key
  let keys := (fs.map (·.key)).foldl (fun l k => if l.contains k then l else l ++ [k]) []
  let p := p.modDomain fun d => { d with finals := d.finals.filter fun f => !mine f.key }
  foldL keys p fun k p => p.logLost peer true origin unit k.fn k.step k.sid.toNat (fs.filter fun f => f.key = k).length

/-- An ingest port went DOWN or was unbound (R607). -/
def Part.ingestLost (p : Part) (i : Nat) : Part :=
  let mine (k : RemoteKey) : Bool := k.ingest && k.sender = i
  let p := (p.revoke scIngest i).dropFinals mine i 4 i
  (p.modDomain fun d => { d with recvKeys := d.recvKeys.filter fun c => !mine c.1 }).showIngest

/-- The port goes DOWN (R567). A port that carried traffic until then is logged (R747, R749). -/
def Part.portDown (p : Part) (i : Nat) : Part :=
  let was := p.portState i = psActive || p.portState i = psRetrain
  let ing := was && p.rd BLK_CFG_MODE i = 2
  let p := (p.portLeaves i psDown).set1 BLK_EVENTS_DOWN i
  let p := if was then p.log 2 5 8 i 0 0 0 else p
  if ing then p.ingestLost i else p

def Part.portBlocked (p : Part) (i : Nat) : Part := p.portLeaves i psBlocked

/-- A quick retrain begins (R578, R588): equaliser state and replay buffer stay; messages go another way where there is one. -/
def Part.enterRetrain (p : Part) (i : Nat) : Part :=
  if p.portState i ≠ psActive then p
  else
    let ds := p.devsOf i
    let p := ((p.wr BLK_STATUS_STATE psRetrain i).inc BLK_COUNTS_RETRAINS 1 i).set1 BLK_EVENTS_RETRAIN i
    let p := p.modPort i fun x => { x with retrains := x.retrains ++ [p.now] }
    foldL ds p fun d p => p.resendTo d

/-! ## Lanes (R569, R570, R574) -/

/-- A lane is quarantined for a cause of R614; 0 where the far end asked for it. -/
def Part.quarantine (p : Part) (i l cause : Nat) : Part :=
  if (p.port i).quar.getLsbD l then p
  else
    let p := (p.modPort i fun x => { x with quar := x.quar ||| ((1 : BitVec 8) <<< l) }).set1 BLK_EVENTS_QUARANTINE i
    if cause = 0 then p else p.wr BLK_LANE_CAUSE cause i l

/-- The width and lanes R570 gives: 0 where the port must go DOWN. -/
def Part.portLanes (p : Part) (i : Nat) : Nat × List Nat :=
  let good := (List.range 8).filter fun l => !(p.port i).quar.getLsbD l
  let split := i = 4 || i = 13
  let low := [0, 1, 2, 3].all good.contains
  let w := if 8 ≤ good.length then 8 else if 6 ≤ good.length then 6 else if 4 ≤ good.length && (!split || low) then 4 else 0
  let least := match p.rd BLK_CFG_MIN_WIDTH i with
    | 1 => 6
    | 2 => 8
    | _ => 4
  if w < least then (0, []) else (w, good.take w)

/-- The port takes the width of its usable lanes, or goes DOWN. -/
def Part.applyWidth (p : Part) (i : Nat) : Part :=
  let (w, ls) := p.portLanes i
  let old := p.rd BLK_STATUS_WIDTH i
  if w = 0 then p.portDown i
  else
    let p := (p.wr BLK_STATUS_WIDTH w i).wr BLK_STATUS_LANES (ls.foldl (fun m l => m + 2 ^ l) 0) i
    if old ≠ 0 && old ≠ w then p.set1 BLK_EVENTS_WIDTH i else p

/-- After a stage of training that may quarantine lanes: the next state, or DOWN. -/
def Part.trainNext (p : Part) (i st : Nat) : Part := if (p.portLanes i).1 = 0 then p.portDown i else p.wr BLK_STATUS_STATE st i

/-! ## Training (R567–R572, R583–R585, R603) -/

def faultCode : LaneFault → Nat
  | .ground => 1
  | .supply => 2
  | .pn => 3
  | .opened => 4
  | .margin => 5
  | .cross => 6

/-- PROBE ends (R568, R569): shorted and open lanes are quarantined; a transmitter joined to a transmitter blocks the port. -/
def execProbe (i : PortId) (faults : List (Fin 8 × LaneFault)) (s : State) : Host.Outcome State Fault Refusal :=
  s.onPart fun p =>
    if p.portState i ≠ psProbe then p
    else
      let p := foldN 8 p fun l p => p.wr BLK_LANE_CAUSE 0 i l
      if faults.any fun f => f.2 = .cross then
        ((foldN 8 p fun l p => p.wr BLK_LANE_CAUSE 6 i l).set1 BLK_EVENTS_CROSS_CONNECT i).portBlocked i
      else (foldL faults p fun f p => p.quarantine i f.1 (faultCode f.2)).wr BLK_STATUS_STATE psLaneId i

/-- LANE_ID ends (R568–R570): polarity and a reversed order are corrected, any other order blocks the port, both ends remove the union of their sets. -/
def execLaneId (i : PortId) (reversed ordered : Bool) (inverted farQuarantine : BitVec 8) (s : State) : Host.Outcome State Fault Refusal :=
  s.onPart fun p =>
    if p.portState i ≠ psLaneId then p
    else
      let p := foldN 8 p fun l p =>
        (p.wr BLK_LANE_POL_INV (b2n (inverted.getLsbD l)) i l).wr BLK_LANE_FAR_LANE (if reversed then 7 - l else l) i l
      if !ordered then (p.set1 BLK_EVENTS_LANE_ORDER i).portBlocked i
      else
        let p := p.wr BLK_STATUS_REVERSED (b2n reversed) i
        (foldL ((List.range 8).filter fun l => farQuarantine.getLsbD l) p fun l p => p.quarantine i l 0).trainNext i psEq

/-- EQ ends (R567, R568): lanes whose eye is too small are quarantined. -/
def execEqTrain (i : PortId) (lowMargin : BitVec 8) (s : State) : Host.Outcome State Fault Refusal :=
  s.onPart fun p =>
    if p.portState i ≠ psEq then p
    else (foldL ((List.range 8).filter fun l => lowMargin.getLsbD l) p fun l p => p.quarantine i l 5).trainNext i psHandshake

/-- The port may run in ingest mode (R603): one of ports 15–17 that the topology leaves free, with ingest windows in the Husk. -/
def Part.ingestAllowed (p : Part) (i : Nat) : Bool :=
  decide (15 ≤ i) && (p.rd GLOBAL_DOMAIN_CFG_TOPOLOGY ≠ 2 || p.rd GLOBAL_DOMAIN_CFG_INGEST_SEL = i - 14) &&
  (List.range 4).any fun j => p.rd HUSK_INGEST_WIN0_VALID 0 (4 * (i - 15) + j) = 1

/-- HANDSHAKE ends (R568, R585, R603): the far identifiers are shown and checked against BLK_CFG. -/
def execHandshake (i : PortId) (domainId : Nat) (dev : DevId) (port mode : Nat) (s : State) : Host.Outcome State Fault Refusal :=
  s.onPart fun p =>
    if p.portState i ≠ psHandshake then p
    else
      let p := (p.wr BLK_STATUS_PEER_DEV dev i).wr BLK_STATUS_PEER_PORT port i
      let ing := p.rd BLK_CFG_MODE i = 2
      let ok := if ing then mode = 2 && p.ingestAllowed i
        else mode ≠ 2 && domainId = p.rd GLOBAL_DOMAIN_CFG_DOMAIN_ID && dev.val = p.rd BLK_CFG_EXPECT_DEV i && port = p.rd BLK_CFG_EXPECT_PORT i
      if ok then p.wr BLK_STATUS_STATE psLinkUp i
      else if ing && !p.ingestAllowed i then p.portBlocked i
      else (p.set1 BLK_EVENTS_CROSS_CONNECT i).portBlocked i

/-- LINK_UP ends (R567, R575, R580, R581, R588): sequence numbers and credits start, the port is ACTIVE; what waited for a route goes. -/
def execLinkUp (i : PortId) (s : State) : Host.Outcome State Fault Refusal :=
  s.onPart fun p =>
    if p.portState i ≠ psLinkUp then p
    else if (p.portLanes i).1 = 0 then p.portDown i
    else
      let had := (List.range 64).filter fun d => (p.portFor d).isSome
      let p := p.modPort i fun x => { x with nextSeq := 0, expect := 0, replay := [], resends := 0, discarding := false, credits := 256, fails := 0, low := [] }
      let p := ((p.applyWidth i).wr BLK_STATUS_STATE psActive i).set1 BLK_EVENTS_UP i
      foldL ((p.devsOf i).filter fun d => !had.contains d) p fun d p => p.resendTo d

/-- DOWN_RETRY (R571): a DOWN port trains again. -/
def execDownRetry (i : PortId) (s : State) : Host.Outcome State Fault Refusal :=
  s.onPart fun p => if p.portState i ≠ psDown then p else p.portTrains i

/-! ## Adaptation and margins (R573, R574) -/

/-- EQ_ADAPT (R573): the equalisers adapt; no register shows their settings. -/
def execEqAdapt (_i : PortId) (s : State) : Host.Outcome State Fault Refusal := s.onPart fun p => p

/-- One lane's update: eye in mV and mUI, symbols corrected since the last update. Key l of `low` counts updates below the limit, 16 + l symbols
corrected in the present second, 32 + l its updates. The flag tells that the lane is to be quarantined; too many corrections are logged (R749). -/
def Part.marginLane (p : Part) (i l mv mui corr : Nat) : Part × Bool :=
  let p := (((p.wr BLK_LANE_EYE_MV (min mv 255) i l).wr BLK_LANE_EYE_MUI (min mui 1000) i l)).inc BLK_LANE_CORR corr i l
  let x := p.port i
  let limit := p.rd BLK_CFG_MARGIN_MV i
  let n := if mv < limit then mget 0 x.low l + 1 else 0
  let sum := mget 0 x.low (16 + l) + corr
  let k := mget 0 x.low (32 + l) + 1
  let beyond := decide (1000 ≤ k)
  let low := mput 0 (mput 0 (mput 0 x.low l n) (16 + l) (if beyond then 0 else sum)) (32 + l) (if beyond then 0 else k)
  let good := !x.quar.getLsbD l
  let many := decide (1000000 < sum)
  let p := p.setPort i { x with low }
  (if good && many then p.log 0 5 8 i 0 1 l else p, good && (decide (100 ≤ n) || many))

/-- MARGIN_UPDATE (R573, R574, R578): every 1 ms; a lane with too small an eye for 100 updates, or with too many corrections in a second, is
quarantined at a quick retrain. -/
def execMarginUpdate (i : PortId) (margins : List (Fin 8 × Nat × Nat × Nat)) (s : State) : Host.Outcome State Fault Refusal :=
  s.onPart fun p =>
    if p.portState i ≠ psActive then p
    else
      let (p, bad) := margins.foldl (fun (q : Part × List Nat) m =>
        let (p, b) := q.1.marginLane i m.1 m.2.1 m.2.2.1 m.2.2.2
        (p, if b then q.2 ++ [m.1.val] else q.2)) (p, [])
      if bad.isEmpty then p else (foldL bad p fun l p => p.quarantine i l 5).enterRetrain i

/-! ## Flits, retry, retrain (R575–R580, R612) -/

/-- The flits still in the replay buffer are sent again, in order. -/
def Part.resendReplay (p : Part) (i : Nat) : Part := foldL (p.port i).replay p fun n p => p.emit (.flit i n)

/-- ACK, credits and NAK of a good flit: acknowledged flits leave the replay buffer; a NAK makes the rest be sent again, at most 8 times without
progress. -/
def Part.flitAcks (p : Part) (i : Nat) (f : Flit) : Part :=
  let x := p.port i
  let hit := x.replay.contains (f.ack % 256)
  let rest := if hit then (x.replay.dropWhile (· ≠ f.ack % 256)).drop 1 else x.replay
  let p := p.setPort i { x with replay := rest, resends := if hit then 0 else x.resends, credits := min 256 (x.credits + f.credit % 64) }
  let p := if hit then p.wr BLK_STATUS_RTT (min f.rtt 4095) i else p
  if !f.nak || rest.isEmpty then p
  else
    let n := (p.port i).resends + 1
    let p := (p.modPort i fun x => { x with resends := n }).inc BLK_COUNTS_REPLAYS 1 i
    let p := p.resendReplay i
    if 8 ≤ n then (p.set1 BLK_EVENTS_REPLAY_LIMIT i).enterRetrain i else p

/-- A NAK with the last good number is sent. -/
def Part.sendNak (p : Part) (i : Nat) : Part :=
  let x := p.port i
  (p.setPort i { x with discarding := true }).emit (.nak i ((x.expect + 255) % 256))

/-- FLIT_RECEIVE (R575–R580, R612): a bad flit and those after it are discarded; flits are accepted in SEQ order. -/
def execFlitReceive (i : PortId) (f : Flit) (s : State) : Host.Outcome State Fault Refusal :=
  s.onPart fun p =>
    if p.portState i ≠ psActive then p
    else if !f.crcOk then (p.inc BLK_COUNTS_CRC_ERR 1 i).sendNak i
    else
      let p := p.flitAcks i f
      let x := p.port i
      if f.seq % 256 = x.expect then
        let p := p.setPort i { x with expect := (x.expect + 1) % 256, discarding := false }
        if f.ctrl then p else p.inc BLK_RX_FLITS_FLITS 1 i
      else if x.discarding || (x.expect + 256 - f.seq % 256) % 256 ≤ 64 then p
      else p.sendNak i

/-- ACK_TIMEOUT (R578): flits have been outstanding for 20 µs with no ACK progress. -/
def execAckTimeout (i : PortId) (s : State) : Host.Outcome State Fault Refusal :=
  s.onPart fun p => if (p.port i).replay.isEmpty then p else p.enterRetrain i

/-- RETRAIN_DONE (R570, R574, R578): the port resends at the width its lanes give; 3 failures in a row, or 8 quick retrains within 1 s, bring it DOWN. -/
def execRetrainDone (i : PortId) (ok : Bool) (now : Nat) (s : State) : Host.Outcome State Fault Refusal :=
  s.onPart fun p =>
    if p.portState i ≠ psRetrain then p
    else
      let p := p.at now
      let x := p.port i
      let recent := x.retrains.filter fun t => p.now < t + ms 1000
      let fails := if ok then 0 else x.fails + 1
      let p := p.setPort i { x with retrains := recent, fails, resends := 0 }
      if 8 ≤ recent.length || 3 ≤ fails then p.portDown i
      else if ok then
        let p := p.applyWidth i
        if p.portState i = psRetrain then (p.wr BLK_STATUS_STATE psActive i).resendReplay i else p
      else
        ((p.inc BLK_COUNTS_RETRAINS 1 i).set1 BLK_EVENTS_RETRAIN i).modPort i fun x => { x with retrains := x.retrains ++ [p.now] }

/-- CREDIT_STALL (R499, R580, R611): the receiver has withheld data credits for 10 µs or more. -/
def execCreditStall (i : PortId) (s : State) : Host.Outcome State Fault Refusal :=
  s.onPart fun p => if p.portState i = psActive then p.set1 BLK_EVENTS_CREDIT_STALL i else p

/-! ## Ingest (R604, R605, R607) -/

/-- INGEST_STATUS (R604): a control message of an ingest writer; any other than INGEST_STATUS is dropped. -/
def execIngestStatus (i : PortId) (foreign : Bool) (s : State) : Host.Outcome State Fault Refusal :=
  s.onPart fun p => if p.ingestUp i && foreign then p.set1 BLK_EVENTS_FOREIGN_CTRL i else p

/-- INGEST_BIND (R605, R607): the port is bound to a function, or unbound. -/
def execIngestBind (c : Issue) (i : PortId) (fn : Option FnId) (s : State) : Host.Outcome State Fault Refusal :=
  s.onPart fun p => p.command c 21 fun p =>
    if i.val < 15 then p.reply c stBadParam 0
    else
      let was := p.rd BLK_INGEST_BOUND i = 1
      match fn with
      | some f =>
        let p := if was && p.rd BLK_INGEST_FN i ≠ f.val then p.ingestLost i else p
        (((p.wr BLK_INGEST_FN f i).wr BLK_INGEST_BOUND 1 i)).reply c stOK 0
      | none =>
        let p := if was then p.ingestLost i else p
        ((p.wr BLK_INGEST_FN 0 i).wr BLK_INGEST_BOUND 0 i).reply c stOK 0

end Sys2Proof.Machine
end

