-- ==== Sys2Proof/Machine/Domain.lean ====
section
/-! DEFINITION. Machine/Domain.lean: membership of the domain, a peer declared dead, forwarded Symbite packets (10, 13, 15). -/

namespace Sys2Proof.Machine

/-! ## The tick master's role (R65, R71, R122) -/

def Part.setRole (p : Part) (on : Bool) : Part := (p.wr TICK_STATUS_ROLE (b2n on)).wr GLOBAL_DEV_TICK_MASTER (b2n on)
def Part.isMaster (p : Part) : Bool := p.rd TICK_STATUS_ROLE = 1
def Part.joined (p : Part) : Bool := p.rd GLOBAL_DEV_JOINED = 1

/-- The device acts as its own tick master. -/
def Part.ownMaster (p : Part) : Part := (p.setRole true).wr TICK_STATUS_SYNC_STATE 0

/-- A TICK_CTL write that awaits its boundary (R122). -/
def Part.showPending (p : Part) : Part := p.wr TICK_STATUS_CTL_PENDING (b2n (p.tick.ctlHeld.isSome || p.tick.plans.any (·.written)))

/-- Members as a list, and the mask with one more or one fewer. -/
def Part.members (p : Part) : List Nat := (List.range 64).filter p.member
def Part.memberMask (p : Part) : W64 := p.reg reg_GLOBAL_MEMBERS
def bit64 (d : Nat) : W64 := (1 : W64) <<< d

/-! ## A peer declared dead (R503–R506, R593, R599, R667) -/

/-- The remote writes of a tile to a device, as (function, step, SID, number). -/
def Part.writesTo (p : Part) (t d : Nat) : List (Nat × Bool × Nat × Nat) :=
  let x := p.tile t
  ((x.sb.filter fun e => e.dev = some d).map fun e => (p.tileFn t, p.tileStep t, e.sid.toNat, e.id)) ++
  (x.unacked.filter fun u => u.dev = d).map fun u => (p.tileFn t, p.tileStep t, u.sid.toNat, u.id)

/-- The tile's work had ended but for such writes: its kernel will tell FENCE_PEER_LOST, a step has faulted (R504, R506). -/
def Part.endLost (p : Part) (t : Nat) : Part := match (p.tile t).work with
  | .kernel k => match p.kernel k with
    | some x => p.setKernel k (some { x with peerLost := true })
    | none => p
  | .step => p.modStep fun x => { x with faulted := true }
  | .idle => p

/-- Every write to a dead device is dropped; one lost-write entry for each stream key. -/
def Part.dropWrites (p : Part) (d : Nat) : Part :=
  let all := p.tiles.flatMap fun c => (p.writesTo c.1 d).map fun w => (c.1, w)
  let key (w : Nat × Nat × Bool × Nat × Nat) : Nat × Bool × Nat := (w.2.1, w.2.2.1, w.2.2.2.1)
  let firsts := all.foldl (fun (l : List (Nat × Nat × Bool × Nat × Nat)) w => if l.any fun v => key v = key w then l else l ++ [w]) []
  let q := foldL firsts p fun w p => p.logLost d false 0 w.1 w.2.1 w.2.2.1 w.2.2.2.1 (all.filter fun v => key v = key w).length
  foldL p.tiles q fun c q =>
    let ids := (p.writesTo c.1 d).map fun w => w.2.2.2
    if ids.isEmpty then q
    else
      let q := if c.2.live.isEmpty then q.endLost c.1 else q
      (q.modTile c.1 fun x => { x with sb := x.sb.filter fun e => e.dev ≠ some d, unacked := x.unacked.filter fun u => u.dev ≠ d }).tileLost c.1 d ids

/-- A forward is over without a reply. -/
def Part.forwardLost (p : Part) (f : Fwd) : Part :=
  let p : Part := { p with host := { p.host with fwds := p.host.fwds.filter fun g => g.id ≠ f.id } }
  (p.inc CMD_COUNTS_FWD_LOST).reply f.issue stForwardLost 0

/-- Repairs that read from a dead golden peer go on with their next source. -/
def Part.goldenDead (p : Part) (d : Nat) : Part :=
  let dev (w i : Nat) : Nat := if i = 0 then p.rd HBM_GOLD_SRC0_DEV 0 w else p.rd HBM_GOLD_SRC1_DEV 0 w
  { p with hbm := { p.hbm with repairs := p.hbm.repairs.map fun r =>
      if !r.idle && p.goldKindOf r.win r.src = 1 && dev r.win r.src = d then p.trySource r (r.src + 1) else r } }

/-- A peer is declared dead, once (R593); the loss of a device is logged (R747, R749). -/
def Part.declareDead (p : Part) (d : Nat) : Part :=
  if p.domain.declared.contains d then p
  else
  let p := p.setReg reg_GLOBAL_DEAD (p.reg reg_GLOBAL_DEAD ||| bit64 d)
  let p := p.dropWrites d
  let p := foldL (p.net.filter fun q => q.dev = some d && q.state = .sent) p fun q p => p.deliver q [] (some .remoteLost)
  let mine (k : RemoteKey) : Bool := !k.ingest && k.sender = d
  let p := (p.dropFinals mine d 3 d).revoke scPeer d
  let p := p.modDomain fun x => { x with
    peers := mput {} x.peers d {}, nextSeq := mput 0 x.nextSeq d 0, sentKeys := x.sentKeys.filter fun c => c.2.1 ≠ d
    recvKeys := x.recvKeys.filter fun c => !mine c.1, reports := x.reports.filter fun c => c.2 ≠ d
    declared := x.declared ++ [d] }
  let p := foldL (p.host.fwds.filter fun f => f.dev = d) p fun f p => p.forwardLost f
  ((p.goldenDead d).log 2 6 12 d 0 0 0).event 0 0x205 d

/-! ## Joining and leaving (R590–R595) -/

/-- DOMAIN_SIZE (R65): 16 in the 16-device topology, in the other the largest set seen, 17 at least (DESIGN CHOICE, log 41). -/
def Part.sizeOf (p : Part) (mask : W64) : Nat :=
  if p.rd GLOBAL_DOMAIN_CFG_TOPOLOGY = 2 then max (max 17 (p.rd GLOBAL_DEV_DOMAIN_SIZE)) ((List.range 64).filter mask.getLsbD).length else 16

/-- The device becomes a member with the set `mask`. -/
def Part.enterDomain (p : Part) (mask : W64) : Part :=
  let p := p.setReg reg_GLOBAL_MEMBERS mask
  let p := (p.wr GLOBAL_DEV_JOINED 1).wr GLOBAL_DEV_DOMAIN_SIZE (p.sizeOf mask)
  p.modDomain fun x => { x with hellos := x.hellos.filter (· ≠ p.dev), declared := [] }

/-- The device takes ticks from the domain's master from now on. -/
def Part.followMaster (p : Part) : Part :=
  let p := (p.setRole false).wr TICK_STATUS_SYNC_STATE 3
  (p.modTick fun x => { x with master := p.rd TICK_MASTER_CFG_MASTER, lastSync := p.now, plans := [], ctlHeld := none }).showPending

/-- Stepping stops as under HALT (R116, R594). -/
def Part.haltStep (p : Part) : Part :=
  (((p.stopStep.modStep fun x => { x with halted := true }).set1 TICK_EVENTS_HALTED).showStep 5)

/-- The device is no member any more: every peer is declared dead, stepping stops, it is its own tick master. -/
def Part.leaveDomain (p : Part) : Part := p.tickEvents fun p =>
  let ds := p.members.filter (· ≠ p.dev)
  let p := (p.wr GLOBAL_DEV_JOINED 0).wr GLOBAL_DEV_DOMAIN_SIZE 0
  let p := (foldL ds p fun d p => p.declareDead d).modDomain fun x => { x with declared := [] }
  (p.haltStep.modTick fun x => { x with plans := x.plans.filter fun q => !q.written }).ownMaster

/-- What this device's HELLO carries. -/
def Part.ownHello (p : Part) : Hello :=
  { domainId := p.rd GLOBAL_DOMAIN_CFG_DOMAIN_ID, dev := Fin.ofNat 64 p.dev, topology := p.rd GLOBAL_DOMAIN_CFG_TOPOLOGY, tickCfg := p.reg reg_TICK_MASTER_CFG }

/-- DOMAIN_JOIN (R590): HELLO goes to the configured tick master. -/
def execDomainJoin (c : Issue) (s : State) : Host.Outcome State Fault Refusal :=
  s.onPart fun p => p.command c 33 fun p =>
    if p.joined || p.rd GLOBAL_DOMAIN_CFG_TOPOLOGY = 0 then p.reply c stBadState 0
    else
      let m := p.rd TICK_MASTER_CFG_MASTER
      let p := p.modDomain fun x => { x with hellos := insNat x.hellos p.dev }
      (if m = p.dev then p else p.sendCtrl m (.hello p.ownHello)).reply c stOK 0

/-- Why a HELLO is refused (R590, R615): 0 where it is not. -/
def Part.refuses (p : Part) (h : Hello) : Nat :=
  let own := p.ownHello
  if h.domainId ≠ own.domainId then 1
  else if h.topology ≠ own.topology then 2
  else if h.tickCfg ≠ own.tickCfg then 3
  else if p.member h.dev then 4
  else 0

/-- HELLO (R72, R590): the tick master will let the device in at the next boundary, or refuses it. -/
def execHello (h : Hello) (s : State) : Host.Outcome State Fault Refusal :=
  s.onPart fun p =>
    if !p.joined || !p.isMaster then p
    else match p.refuses h with
      | 0 => p.modDomain fun x => { x with hellos := insNat x.hellos h.dev }
      | n => (p.set1 GLOBAL_DOMAIN_EVENTS_JOIN_REFUSED).wr GLOBAL_DOMAIN_EVENTS_REFUSE_CAUSE n

/-- The member set is sent to every member. -/
def Part.sendMembers (p : Part) : Part := foldL (p.members.filter (· ≠ p.dev)) p fun d p => p.sendCtrl d (.member p.memberMask)

/-- At a boundary the tick master admits the devices whose HELLO it accepted; the configured master admits itself. -/
def Part.takeHellos (p : Part) : Part :=
  let hs := p.domain.hellos
  if hs.isEmpty || !p.isMaster || !(p.joined || (p.rd TICK_MASTER_CFG_MASTER = p.dev && hs.contains p.dev)) then p
  else
    let old : W64 := if p.joined then p.memberMask else 0
    let p := p.enterDomain (hs.foldl (fun m d => m ||| bit64 d) old)
    (p.modDomain fun x => { x with hellos := [] }).sendMembers

/-- MEMBER_SEND (R591): every 100 ms. -/
def execMemberSend (s : State) : Host.Outcome State Fault Refusal :=
  s.onPart fun p => if p.joined && p.isMaster then p.sendMembers else p

/-- MEMBER (R591, R593, R595): the set as the tick master sends it. -/
def execMember (mask : W64) (s : State) : Host.Outcome State Fault Refusal :=
  s.onPart fun p =>
    let has := mask.getLsbD p.dev
    if !p.joined then (if has && p.domain.hellos.contains p.dev then (p.enterDomain mask).followMaster else p)
    else if p.isMaster then p
    else if !has then (p.set1 GLOBAL_DOMAIN_EVENTS_EXCLUDED).leaveDomain
    else
      let gone := p.members.filter fun d => !mask.getLsbD d
      let p := p.setReg reg_GLOBAL_MEMBERS mask
      let p := p.wr GLOBAL_DEV_DOMAIN_SIZE (p.sizeOf mask)
      (foldL gone p fun d p => p.declareDead d).modDomain fun x => { x with declared := x.declared.filter fun d => mask.getLsbD d && (p.portFor d).isNone }

/-- The tick master removes a member (R592): the others learn it from MEMBER. -/
def Part.removeMember (p : Part) (d : Nat) : Part :=
  let p := p.setReg reg_GLOBAL_MEMBERS (p.memberMask &&& ~~~(bit64 d))
  let p := p.sendCtrl d (.member p.memberMask)
  ((p.declareDead d).modDomain fun x => { x with declared := x.declared.filter (· ≠ d) }).sendMembers

/-- DOMAIN_EXCLUDE (R592): performed by the tick master. -/
def execDomainExclude (c : Issue) (d : DevId) (s : State) : Host.Outcome State Fault Refusal :=
  s.onPart fun p => p.command c 34 fun p =>
    if !p.joined || !p.isMaster then p.reply c stBadState 0
    else if !p.member d || d.val = p.dev then p.reply c stBadParam 0
    else (p.removeMember d).reply c stOK 0

/-- A member to which no route leads. -/
def Part.noRoute (p : Part) (d : Nat) : Bool := p.joined && p.member d && d ≠ p.dev && (p.portFor d).isNone

/-- ROUTE_LOST_SEND (R592): no route to a member for DEAD_MS. The master removes it at once. -/
def execRouteLostSend (d : DevId) (s : State) : Host.Outcome State Fault Refusal :=
  s.onPart fun p =>
    if !p.noRoute d then p
    else if p.isMaster then p.removeMember d
    else p.sendCtrl p.tick.master (.routeLost d)

/-- ROUTE_LOST (R592): reports from two or more devices remove the member. -/
def execRouteLost (reporter d : DevId) (s : State) : Host.Outcome State Fault Refusal :=
  s.onPart fun p =>
    if !p.joined || !p.isMaster || !p.member reporter || !p.member d || d.val = p.dev then p
    else
      let p := p.modDomain fun x => { x with reports := if x.reports.contains (reporter.val, d.val) then x.reports else x.reports ++ [(reporter.val, d.val)] }
      if 2 ≤ (p.domain.reports.filter fun c => c.2 = d.val).length then p.removeMember d else p

/-- PEER_DEAD_TIMEOUT (R593): no route to a peer for DEAD_MS + 4 ms, and no MEMBER without it. -/
def execPeerDeadTimeout (d : DevId) (s : State) : Host.Outcome State Fault Refusal :=
  s.onPart fun p => if p.noRoute d then p.declareDead d else p

/-- The member reaches enough of its domain (R594). -/
def Part.majority (p : Part) : Bool :=
  let reach := p.members.filter fun d => d = p.dev || (p.portFor d).isSome
  let n := p.rd GLOBAL_DEV_DOMAIN_SIZE
  decide (n < 2 * reach.length) || (2 * reach.length = n && reach.contains (p.rd TICK_MASTER_CFG_MASTER))

/-- DOMAIN_LEAVE (R594): the test has failed for DEAD_MS. -/
def execDomainLeave (s : State) : Host.Outcome State Fault Refusal :=
  s.onPart fun p => if p.joined && !p.majority then (p.set1 GLOBAL_DOMAIN_EVENTS_LEFT).leaveDomain else p

/-! ## Forwarded packets (R665–R667) -/

/-- A forwarded packet is checked by class and sender; the command it carries is performed by its own row. -/
def Part.fwdRequest (p : Part) (d id : Nat) (cls : CmdClass) (fn : Nat) (op : BitVec 16) : Part :=
  let i := (opCodes.mapIdx fun i o => (o, i)).find? fun c => c.1 = op.toNat
  let status := match i with
    | none => stUnknownOpcode
    | some (_, i) => if !p.member d || !p.admits i cls then stClassDenied else 0
  if status = 0 then p
  else (p.huskCapture op.toNat status (classCode cls) fn).sendCtrl d (.forwardReply d id (BitVec.ofNat 16 status) 0)

/-- SYMBITE_FWD (R582, R665, R666): a packet of another device, or the reply to one of this device: its status, then DETAIL and the output. -/
def execSymbiteFwd (sender : DevId) (isReply : Bool) (id : Nat) (cls : CmdClass) (fn : FnId) (op : BitVec 16) (body : List Byte) (s : State) :
    Host.Outcome State Fault Refusal :=
  s.onPart fun p =>
    if !isReply then p.fwdRequest sender id cls fn op
    else match p.host.fwds.find? fun f => f.id = id && f.dev = sender.val with
      | none => p
      | some f =>
        let p : Part := { p with host := { p.host with fwds := p.host.fwds.filter fun g => g.id ≠ id } }
        p.reply f.issue op.toNat (leAt body 0 8) (body.drop 8)

/-- FORWARD_TIMEOUT (R667): no reply within CMD_CFG.FWD_MS. -/
def execForwardTimeout (id : Nat) (s : State) : Host.Outcome State Fault Refusal :=
  s.onPart fun p => match p.host.fwds.find? fun f => f.id = id with
    | none => p
    | some f => p.forwardLost f

end Sys2Proof.Machine
end

