-- ==== Sys2Proof/Machine/Tick.lean ====
section
/-! DEFINITION. Machine/Tick.lean: the tick's own events: boundaries, the start and completion of a step, the guard window, verdicts, the messages of the
tick master, domain time (02). -/

namespace Sys2Proof.Machine

/-! ## The boundary (R68–R70, R79, R82, R98–R118) -/

def Part.period (p : Part) : Nat := us (p.rd TICK_CTL_PERIOD_US)

/-- The boundary is here: the tick number rises, TICK_CTL takes the values announced for it, the next boundary is set (R70, R118). -/
def Part.nextTick (p : Part) : Part :=
  let p := (p.at p.tick.boundary).setReg reg_TICK_NUMBER (p.reg reg_TICK_NUMBER + 1)
  let n := p.tickNo
  let p := match p.tick.plans.find? fun q => q.tick = n with
    | none => p
    | some q =>
      let p' := p.setReg reg_TICK_CTL q.ctl
      if q.written || q.ctl ≠ p.reg reg_TICK_CTL then p'.set1 TICK_EVENTS_CTL_APPLIED else p'
  let plans := p.tick.plans.filter fun q => n < q.tick
  let next := ((plans.find? fun q => q.tick = n + 1).map (·.boundary)).getD (p.tick.boundary + p.period)
  (p.modTick fun x => { x with boundary := next, plans, announced := false }).showPending

/-- The verdict this boundary acts on, with its OVERRUN flag: STEP_HALT makes it HALT (R116, R661). -/
def Part.verdictNow (p : Part) : Option Verdict × Bool :=
  let flag := (p.tick.verdictIn.map (·.2)).getD false
  if p.tick.haltReq && p.step.active.isSome && !p.step.halted then (some .halt, flag) else (p.tick.verdictIn.map (·.1), flag)

/-- The step is abandoned at the boundary (R113, R116, R830). -/
def Part.abandonStep (p : Part) (halt beyond : Bool) : Part :=
  let p := ((p.stopStep.set1 TICK_EVENTS_ABANDONED).inc TICK_COUNTS_ABANDONS).inc TICK_STATUS_ABANDON_COUNT
  let d := p.rd TICK_STATUS_ABANDON_COUNT + 256 * b2n halt + 512 * b2n beyond
  let p := p.log 2 6 15 p.dev 0 3 d { origin := 0, unit := 0, fn := 0, step := true }
  if halt then (p.modStep fun x => { x with halted := true }).set1 TICK_EVENTS_HALTED else p

/-- What the verdict does to the step in progress (R82, R104, R109, R113, R116). -/
def Part.judge (p : Part) (v : Option Verdict) (beyond : Bool) : Part := match v with
  | none => ((p.set1 TICK_EVENTS_VERDICT_MISSING).inc TICK_COUNTS_HOLDS).inc TICK_COUNTS_SKIPPED
  | some .commit => ((p.commitStep.wr TICK_STATUS_ABANDON_COUNT 0).wr TICK_STATUS_STRETCH_COUNT 0)
  | some .stretch => ((p.set1 TICK_EVENTS_STRETCHED).inc TICK_COUNTS_SKIPPED).inc TICK_STATUS_STRETCH_COUNT
  | some .abandon => (p.abandonStep false beyond).wr TICK_STATUS_STRETCH_COUNT 0
  | some .halt => (p.abandonStep true beyond).wr TICK_STATUS_STRETCH_COUNT 0
  | some .noStep => p

/-- A verdict at whose boundary repairs and a new step are admitted (R312). -/
def settles : Option Verdict → Bool
  | none => false
  | some .stretch => false
  | some _ => true

/-- A verdict at which a staged image becomes active (R98). -/
def activates : Option Verdict → Bool
  | some .commit => true
  | some .noStep => true
  | _ => false

/-- STEP_RESUME: stepping that was halted goes on (R116). -/
def Part.resume (p : Part) (v : Option Verdict) : Part :=
  if p.tick.resumeReq && settles v then
    ({ p with step := { p.step with halted := p.step.halted && v = some .halt } } : Part).modTick fun x => { x with resumeReq := false }
  else p

/-- The phase that the boundary opens: a step phase with a new attempt, the one of a step that goes on, or the open phase (R83, R109, R110). -/
def Part.openPeriod (p : Part) (v : Option Verdict) : Part :=
  let p := if settles v && p.step.active.isSome && !p.step.halted then p.startAttempt else p
  let goes := p.stepGoes
  let p := p.modTick fun x => { x with phase := if goes then .step else .opened, verdictIn := none, haltReq := false, statuses := [] }
  let st := if p.step.halted then 5 else if v.isNone then 4 else if p.step.active.isNone then 0 else if goes then (if v = some .stretch then 3 else 1) else 2
  (p.showStep st).applyPhase (if goes then 0 else 1)

/-- Power mode and open-phase hints that were to take effect at this boundary (R716, R731). -/
def Part.newSettings (p : Part) : Part :=
  let p := match p.power.modeNext with
    | some (t, m) => if t ≤ p.tickNo then (p.wr PWR_STATUS_MODE (b2n m)).modPower fun w => { w with modeNext := none } else p
    | none => p
  match p.power.hintsNext with
  | some h => p.modPower fun w => { w with hints := h, hintsNext := none, raises := [] }
  | none => p

/-- The firmware switch (R764, R783): the old firmware stops, the engine starts to write the slot. -/
def Part.fwSwitch (p : Part) : Part :=
  if p.repair.fwIssue.isSome && !p.repair.fwOld then
    ((p.modRepair fun q => { q with fwOld := true, fwSince := p.now }).wr GLOBAL_REPAIR_STATUS_FW_SWITCH 1).wr HUSK_FW_STATUS_SLOT_STATE 1
  else p

/-- All that a boundary does to the part, in order. -/
def Part.boundary_ (p : Part) : Part :=
  let (v, beyond) := p.verdictNow
  let p := (p.nextTick.judge v beyond).resume v
  let p := if settles v then p.applyRepairs else p
  let p := if activates v then p.activateImage else p
  let p := p.reloadSilent
  (p.newSettings.fwSwitch.takeHellos).openPeriod v

/-- TICK_BOUNDARY (R67, R70, R82, R98, R102, R104, R109, R113, R116, R118, R311, R318, R731, R750, R757, R764): the boundary is reached. The repair
records take what is due, after a fatal error too. -/
def execTickBoundary (s : State) : Host.Outcome State Fault Refusal :=
  let p := if s.part.fatal then s.part else s.part.tickEvents Part.boundary_
  let r := p.flushRecords s.serial
  .next (if s.pins.inReset then s else { s with part := r.1, serial := r.2 })

/-! ## Start and completion of a step (R83–R85) -/

/-- No pod of the step is still being saved, and the attempt waits for its start. -/
def Part.canStart (p : Part) : Bool :=
  p.step.running && !p.step.started && p.stepPods.all fun q => p.podState q = 0

/-- The start lag (R84). -/
def Part.startLag (p : Part) : Part :=
  let lag := min 255 ((p.now - p.step.bound) / 10000)
  if p.step.late then (p.set1 TICK_EVENTS_START_LATE).wr TICK_STEP_START_LAG_US lag else p.wr TICK_STEP_START_LAG_US 0

/-- STEP_START (R83, R84, R89, R102, R117, R139, R284, R331): streams and schedules start; with no slot to run the step is complete at once. -/
def execStepStart (now : Nat) (s : State) : Host.Outcome State Fault Refusal :=
  s.onPart fun p => match p.step.active with
    | none => p
    | some im =>
      if !p.canStart then p
      else p.tickEvents fun p =>
        let p := (p.at now).startLag
        let p := foldL p.stepPods p fun q p => p.takePod q
        if p.step.runs.isEmpty then (p.modStep fun x => { x with started := true, startAt := p.now }).completeStep else p.startStreams im

/-- A tile's part of the step goes on towards its end: its stream has ended, its store buffer drains, its dirty sectors are written back. -/
def Part.endStream (p : Part) (t : Nat) : Part :=
  if p.step.done.contains t || !(p.tile t).live.isEmpty then p
  else
    let (p, ok) := p.drainTile t .ending
    if ok then p.modStep fun x => { x with done := x.done ++ [t] } else p

/-- Every tile and every router is done (R85). -/
def Part.stepDone (p : Part) : Bool :=
  p.step.streams.all p.step.done.contains && (List.range 3072).all fun t => (p.router t).state = .ended

/-- STEP_COMPLETE (R85, R95, R100, R110, R320): the step is complete once every tile has ended, drained and written back and every router has run its
last slot; a step that has faulted is not. -/
def execStepComplete (now : Nat) (s : State) : Host.Outcome State Fault Refusal :=
  s.onPart fun p =>
    if !p.stepGoes || !p.step.started then p
    else
      let p := foldL p.step.streams (p.at now) fun t p => p.endStream t
      if p.stepDone && !p.step.faulted then p.completeStep else p

/-! ## Guard window and verdict (R79–R82, R87, R112, R637, R730, R841) -/

/-- What STEP_STATUS says: the step's state, slots faulted, slots marked for replay. -/
def Part.stepReport (p : Part) : StepReport × Nat × Nat :=
  let st := if !p.step.running then StepReport.complete else if p.step.faulted then .faulted else if p.step.complete then .complete else .running
  let w (k : Nat) : List Byte := p.seqBytes p.workBase k
  (st, (p.step.runs.filter fun k => leAt (w k) 28 2 ≠ 0).length, (p.step.runs.filter fun k => (seqHead (leAt (w k) 0 8)).replay).length)

/-- GUARD_START (R79, R87, R637, R715, R730): the step's deadline. -/
def execGuardStart (s : State) : Host.Outcome State Fault Refusal :=
  s.onPart fun p =>
    if p.tick.phase = .guard then p
    else
      let p := p.at (p.tick.boundary - us (p.rd TICK_CTL_GUARD_US))
      let (st, nf, nr) := p.stepReport
      let p := p.preemptAll.modTick fun x => { x with phase := .guard, lastStatus := st }
      let p : Part := if p.attached then p else { p with host := { p.host with openStop := true } }
      let p := foldL (p.stepPods.flatMap podTiles) p fun t p => if (p.tile t).gated then p.powerUp t else p
      let p := (if p.stepGoes then p else p.endHints).applyPhase 2
      if p.joined && !p.isMaster then p.sendCtrl p.tick.master (.stepStatus st nf nr) else p

/-- STEP_STATUS_RECEIVED (R79, R80): a member's report, in time for the verdict. -/
def execStepStatusReceived (dev : DevId) (rep : StepReport) (slotsFaulted slotsReplay : Nat) (s : State) : Host.Outcome State Fault Refusal :=
  s.onPart fun p =>
    if !p.isMaster || !p.member dev || p.tick.boundary < p.now + us 12 then p
    else p.modTick fun x => { x with statuses := (x.statuses.filter fun c => c.1 ≠ dev.val) ++ [(dev.val, rep, slotsFaulted, slotsReplay)] }

/-- A verdict arrives (R82, R112, R753, R841): OVERRUN is counted, ABANDON and HALT stop the step now. -/
def Part.takeVerdict (p : Part) (v : Verdict) (beyond : Bool) : Part :=
  let p := p.modTick fun x => { x with verdictIn := some (v, beyond) }
  let p := if beyond then (p.set1 TICK_EVENTS_OVERRUN).inc TICK_COUNTS_OVERRUNS else p
  let p := if v = .abandon || v = .halt then p.stopStep else p
  if settles (some v) then p.mapOutTesting else p

/-- The reports the tick master decides by: its own, and those received; a missing one counts as RUNNING (R80). -/
def Part.reportsIn (p : Part) : List StepReport :=
  p.tick.lastStatus :: ((p.members.filter (· ≠ p.dev)).map fun d => ((p.tick.statuses.find? fun c => c.1 = d).map (·.2.1)).getD .running)

/-- R81, rows in order; the flag tells that some device counted as RUNNING at a verdict that is no COMMIT or NONE (R841). -/
def Part.decide_ (p : Part) : Verdict × Bool :=
  let rs := p.reportsIn
  let faulted := rs.contains .faulted
  let running := rs.contains .running
  let canStretch := p.rd TICK_CTL_OVERRUN_POLICY = 0 && p.rd TICK_STATUS_STRETCH_COUNT < p.rd TICK_CTL_STRETCH_MAX
  let drop := faulted || (running && !canStretch)
  if p.step.active.isNone || p.step.halted then (.noStep, false)
  else if drop && p.rd TICK_CTL_REPLAY_MAX ≤ p.rd TICK_STATUS_ABANDON_COUNT + 1 then (.halt, running)
  else if faulted then (.abandon, running)
  else if !running then (.commit, false)
  else if canStretch then (.stretch, true)
  else (.abandon, true)

/-- VERDICT_DECISION (R79–R81): 10 µs before the boundary, at the tick master. -/
def execVerdictDecision (s : State) : Host.Outcome State Fault Refusal :=
  s.onPart fun p =>
    if !p.isMaster || p.tick.phase ≠ .guard || p.tick.verdictIn.isSome then p
    else p.tickEvents fun p =>
      let p := p.at (p.tick.boundary - us 10)
      let (v, beyond) := p.decide_
      let p := p.takeVerdict v beyond
      if p.joined then foldL (p.members.filter (· ≠ p.dev)) p fun d p => p.sendCtrl d (.verdict v beyond) else p

/-- VERDICT (R79, R82, R112, R841): the tick master's verdict reaches another device. -/
def execVerdict (v : Verdict) (overrun : Bool) (s : State) : Host.Outcome State Fault Refusal :=
  s.onPart fun p => if p.isMaster || !p.joined then p else p.tickEvents fun p => p.takeVerdict v overrun

/-! ## ANNOUNCE (R77–R79, R118) -/

/-- ANNOUNCE_SEND (R79, R118): 10 µs after the boundary the tick master fixes the values for tick N + 2. -/
def execAnnounceSend (s : State) : Host.Outcome State Fault Refusal :=
  s.onPart fun p =>
    if !p.isMaster || p.tick.announced then p
    else
      let n := p.tickNo
      let plan? := p.tick.plans.find? fun q => q.tick = n + 1
      let ctl1 := (plan?.map (·.ctl)).getD (p.reg reg_TICK_CTL)
      let ctl := p.tick.ctlHeld.getD ctl1
      let b := p.tick.boundary + us (getB ctl1 0 17)
      let plan : Plan := { tick := n + 2, boundary := b, ctl, written := p.tick.ctlHeld.isSome }
      let p := (p.at (p.tick.boundary - p.period + us 10)).modTick fun x => { x with plans := x.plans ++ [plan], ctlHeld := none, announced := true }
      let p := p.showPending
      if p.joined then foldL (p.members.filter (· ≠ p.dev)) p fun d p => p.sendCtrl d (.announce (n + 2) b ctl) else p

/-- ANNOUNCE (R72, R79, R118, R590): the values for a later tick. A device that has just joined takes the domain's numbering from it. -/
def execAnnounce (tick boundary : Nat) (ctl : W64) (s : State) : Host.Outcome State Fault Refusal :=
  s.onPart fun p =>
    let plan : Plan := { tick, boundary, ctl, written := false }
    if p.isMaster || !p.joined then p
    else if p.rd TICK_STATUS_SYNC_STATE = 3 && p.tick.plans.isEmpty then
      (p.setReg reg_TICK_NUMBER (BitVec.ofNat 64 (tick - 2))).modTick fun x => { x with plans := [plan], boundary := boundary - us (getB ctl 0 17) }
    else if tick ≤ p.tickNo + 1 then p
    else p.modTick fun x => { x with plans := (x.plans.filter fun q => q.tick ≠ tick) ++ [plan] }

/-! ## Domain time (R73–R78) -/

/-- SYNC_SEND (R73): the tick master's time, every 1 ms. -/
def execSyncSend (s : State) : Host.Outcome State Fault Refusal :=
  s.onPart fun p =>
    if !p.isMaster || !p.joined then p
    else
      let p := (p.at (p.tick.syncSent + ms 1)).modTick fun x => { x with syncSent := p.tick.syncSent + ms 1 }
      foldL (p.members.filter (· ≠ p.dev)) p fun d p => p.sendCtrl d (.sync p.now)

/-- A signed offset as ALIGN shows it, clipped to its 16 bits. -/
def alignBits (d : Int) : Nat := toBits 16 (max (-32768) (min 32767 d))

/-- SYNC (R73, R74, R77, R122): the device disciplines its time to the master's, whose delay over the hops has been measured. -/
def execSync (master : DevId) (masterTime hopDelay now : Nat) (s : State) : Host.Outcome State Fault Refusal :=
  s.onPart fun p =>
    if p.isMaster || !p.joined || master.val ≠ p.tick.master then p
    else
      let p := p.at now
      let t := masterTime + hopDelay
      let p := p.wr TICK_STATUS_ALIGN (alignBits ((p.now : Int) - (t : Int)))
      let p := p.at t
      let p := p.modTick fun x => { x with lastSync := p.now }
      if p.rd TICK_STATUS_SYNC_STATE = 3 && p.tick.plans.isEmpty then p else p.wr TICK_STATUS_SYNC_STATE 1

/-- HOLDOVER (R75): more than 1.5 ms past an expected SYNC. -/
def execHoldover (now : Nat) (s : State) : Host.Outcome State Fault Refusal :=
  s.onPart fun p =>
    if p.isMaster || !p.joined || p.rd TICK_STATUS_SYNC_STATE = 2 || max now p.now ≤ p.tick.lastSync + us 2500 then p
    else p.tickEvents fun p => ((p.at now).wr TICK_STATUS_SYNC_STATE 2).set1 TICK_EVENTS_HOLDOVER

/-- The listed successors of the tick master, in rank order (R71, R121). -/
def Part.successors (p : Part) : List Nat :=
  ([p.rd TICK_MASTER_CFG_SUCC1, p.rd TICK_MASTER_CFG_SUCC2, p.rd TICK_MASTER_CFG_SUCC3, p.rd TICK_MASTER_CFG_SUCC4, p.rd TICK_MASTER_CFG_SUCC5,
    p.rd TICK_MASTER_CFG_SUCC6, p.rd TICK_MASTER_CFG_SUCC7] : List Nat).take (p.rd TICK_MASTER_CFG_COUNT)

/-- MASTER_LOST (R76–R78): 4 ms without a SYNC. The first successor that is still a member takes over, with the TICK_CTL values in force. -/
def execMasterLost (now : Nat) (s : State) : Host.Outcome State Fault Refusal :=
  s.onPart fun p =>
    if p.isMaster || !p.joined || max now p.now < p.tick.lastSync + ms 4 then p
    else match p.successors.find? fun d => p.member d && d ≠ p.tick.master with
      | none => p
      | some d => p.tickEvents fun p =>
        let p := (p.at now).set1 TICK_EVENTS_MASTER_CHANGE
        let p := p.modTick fun x => { x with master := d, lastSync := p.now, syncSent := p.now, ctlHeld := none }
        if d = p.dev then p.ownMaster.showPending else p

end Sys2Proof.Machine
end

