-- ==== Sys2Proof/Machine/Firmware.lean ====
section
/-! DEFINITION. Machine/Firmware.lean: signed objects, the update buffer, the firmware switch, the Husk watchdog, accesses of the control cores,
attestation (18, 19). -/

namespace Sys2Proof.Machine

/-! ## Configuration copies (R773, R790, R794) -/

/-- The classes a configuration copy allows opcode number `i`. -/
def CfgCopy.classes (c : CfgCopy) (i : Nat) : Nat := ((c.opc.find? fun e => e.1 = i).map (·.2)).getD (opClasses.getD i 0)

/-- The largest ceiling of rail `r`: its default limit of R703 × 1.25 (R794). -/
def railMost (r : Nat) : Nat := resetRails.getD r 0 * 5 / 4
/-- The ceiling a configuration copy gives a rail. -/
def CfgCopy.railCeil (c : CfgCopy) (r : Nat) : Nat := ((c.rails.find? fun e => e.1 = r).map (·.2)).getD (railMost r)

/-- R794: no class beyond R661, no ceiling beyond its limit. -/
def CfgCopy.bounded (c : CfgCopy) : Bool :=
  ((List.range 45).all fun i => c.classes i &&& opClasses.getD i 0 = c.classes i) && ((List.range 33).all fun r => c.railCeil r ≤ railMost r) &&
  decide (c.limitW ≤ 3900) && decide (c.vcdMv ≤ 900) && decide (c.tHot ≤ 100) && decide (c.tCrit ≤ 110) && decide (10 ≤ c.wdogMs) && decide (c.wdogMs ≤ 1000)

/-- A table of `n` entries, and its entries other than 0. -/
def tableOf (n : Nat) (f : Nat → Nat) : List (Nat × Nat) := (List.range n).map fun i => (i, f i)
def sparse (l : List (Nat × Nat)) : SMap Nat := l.filter fun e => e.2 ≠ 0

/-- The contents of a configuration copy, read from its bytes (log 9). -/
def parseCfg (bs : List Byte) : CfgCopy :=
  let f (i : Nat) : Nat := Config.cfgField i bs
  let pairs (n at_ : Nat) : List (W64 × W64) := (List.range n).map fun i => (BitVec.ofNat 64 (f (at_ + 2 * i)), BitVec.ofNat 64 (f (at_ + 2 * i + 1)))
  { valid := true, version := leAt bs 4 4, devId := f 0 % 64, domainId := f 1 % 65536, topology := f 2 % 4, master := BitVec.ofNat 64 (f 3),
    ingestSel := f 4 % 4, minFw := f 5, limitW := f 6, vcdMv := f 7, slackFloor := f 8, tHot := f 9, tCrit := f 10, ports := BitVec.ofNat 18 (f 11),
    tileRead := BitVec.ofNat 13 (f 12), tileWrite := BitVec.ofNat 13 (f 13), wdogMs := f 14, modes := sparse (tableOf 18 fun i => f (100 + i)),
    fwWins := pairs 16 200, ingestWins := pairs 12 300, opc := tableOf 45 fun i => f (400 + i), rails := tableOf 33 fun i => f (500 + i),
    curve := sparse (tableOf 16 fun i => f (600 + i)), digest := sha256 bs, boundsDigest := Config.cfgBounds bs }

/-! ## Signed objects (R770, R772, R774) -/

/-- The largest object of a type. -/
def objMost (ty : Nat) : Nat := if ty = 1 then 0x1000000 else if ty = 2 then 0x40000 else 0x2000

/-- The first `n` bytes of a buffer. -/
def bufBytes (m : SMap Byte) (n : Nat) : List Byte := (List.range n).map fun i => mget 0 m i

/-- The header of an object is in range and names this package. -/
def Serial.headOk (x : Serial) (h : List Byte) : Bool :=
  let ty := leAt h 0 2
  let len := leAt h 8 4
  decide (1 ≤ ty) && decide (ty ≤ 3) && leAt h 2 2 = 1 && decide (416 ≤ len) && decide (len ≤ objMost ty) && leAt h 28 4 = 0 &&
  leAt h 12 16 = (if ty = 1 then 0 else leAt x.packageSerial 0 16)

/-- A whole object verifies (R770, R772, R774, R794): its header, its signature with the root key (the owner key for a configuration copy), the lowest
firmware version the configuration in use admits, and the bounds of a configuration copy. -/
def Serial.verify (x : Serial) (minFw : Nat) (obj : List Byte) : Bool :=
  let ty := leAt obj 0 2
  x.headOk obj && decide (leAt obj 8 4 ≤ obj.length) && Config.signatureOk (ty ≠ 2) (obj.take (leAt obj 8 4)) &&
  (if ty = 1 then decide (minFw ≤ leAt obj 4 4) else if ty = 2 then (parseCfg (obj.take (leAt obj 8 4))).bounded else true)

/-- Whether the engine writes copy B of the configuration (R784): the copy that is damaged, else the one whose VERSION is lower, B when equal. -/
def Serial.targetB (x : Serial) : Bool := x.cfgA.valid && (!x.cfgB.valid || decide (x.cfgB.version ≤ x.cfgA.version))

/-- An object's region written and read back. -/
def Serial.write (x : Serial) (obj : List Byte) : Serial :=
  let obj := obj.take (leAt obj 8 4)
  match leAt obj 0 2 with
  | 1 => { x with fwOk := true, fwVersion := leAt obj 4 4, fwDigest := sha256 obj }
  | 2 => if x.targetB then { x with cfgB := parseCfg obj } else { x with cfgA := parseCfg obj }
  | _ => { x with ownerOk := true, ownerDigest := sha256 obj }

/-- A region whose write stopped, or was not read back as written, holds nothing that verifies (R785, R786). -/
def Serial.damage (x : Serial) (ty : Nat) : Serial := match ty with
  | 1 => { x with fwOk := false }
  | 2 => if x.targetB then { x with cfgB := { x.cfgB with valid := false } } else { x with cfgA := { x.cfgA with valid := false } }
  | _ => { x with ownerOk := false }

/-! ## The update buffer (R781, R782) -/

def Part.modBoot (p : Part) (f : Boot → Boot) : Part := { p with boot := f p.boot }

/-- Bytes put into a buffer at `o`. -/
def putBuf (m : SMap Byte) (o : Nat) (bs : List Byte) : SMap Byte := (bs.mapIdx fun i b => (o + i, b)).foldl (fun m c => mput 0 m c.1 c.2) m

/-- The loaded bytes of the update buffer. -/
def Part.updBytes (p : Part) : List Byte := bufBytes p.boot.updBuf (p.rd HUSK_FW_STATUS_BUF_BYTES)

/-- The update buffer is emptied, its state shown. -/
def Part.emptyBuf (p : Part) (st : Nat) : Part :=
  ((p.modBoot fun b => { b with updBuf := [] }).wr HUSK_FW_STATUS_BUF_BYTES 0).wr HUSK_FW_STATUS_BUF_STATE st

/-- FW_LOAD (R661, R781). -/
def execFwLoad (c : Issue) (offset : Nat) (chunk : List Byte) (s : State) : Host.Outcome State Fault Refusal :=
  s.onPart fun p => p.command c 42 fun p =>
    if p.rd HUSK_FW_STATUS_SLOT_STATE = 1 then p.reply c stBadState 0
    else if offset % 8 ≠ 0 || 0x1000000 < offset + chunk.length then p.reply c stBadParam 0
    else
      let p := if offset = 0 then p.emptyBuf 0 else p
      let top := max (p.rd HUSK_FW_STATUS_BUF_BYTES) (offset + chunk.length)
      let p := p.modBoot fun b => { b with updBuf := putBuf b.updBuf offset chunk }
      let p := (p.wr HUSK_FW_STATUS_BUF_BYTES top).wr HUSK_FW_STATUS_BUF_STATE 1
      (p.wr HUSK_FW_STATUS_BUF_TYPE (leAt p.updBytes 0 2)).reply c stOK 0

/-- A verified object is taken into use: firmware switches at the next boundary (R764, R783), the engine starts on any other region (R784). -/
def Part.takeObject (p : Part) (c : Issue) (obj : List Byte) : Part :=
  let p := p.wr HUSK_FW_STATUS_BUF_STATE 2
  if leAt obj 0 2 = 1 then p.modRepair fun q => { q with fwIssue := some c, fwNewVersion := leAt obj 4 4 }
  else (p.wr HUSK_FW_STATUS_SLOT_STATE 1).modBoot fun b => { b with slotIssue := some c }

/-- FW_ACTIVATE (R781–R784): the buffer is verified. -/
def execFwActivate (c : Issue) (s : State) : Host.Outcome State Fault Refusal :=
  s.onPart fun p => p.command c 43 fun p =>
    let obj := p.updBytes
    if p.rd HUSK_FW_STATUS_SLOT_STATE = 1 || p.repair.fwIssue.isSome || p.boot.slotIssue.isSome then p.reply c stBadState 0
    else if s.serial.verify p.boot.cfg.minFw obj && (leAt obj 0 2 ≠ 2 || decide (p.rd HUSK_STATUS_CFG_SEQ < leAt obj 4 4)) then p.takeObject c obj
    else (p.emptyBuf 3).reply c stAuthFail 0

/-- SLOT_WRITE_DONE (R784–R786): the engine has written and read back a region. -/
def execSlotWriteDone (ok : Bool) (s : State) : Host.Outcome State Fault Refusal :=
  let p := s.part
  if s.pins.inReset || p.rd HUSK_FW_STATUS_SLOT_STATE ≠ 1 then .next s
  else
    let p := if ok then (p.wr HUSK_FW_STATUS_SLOT_STATE 0).set1 HUSK_EVENTS_FW_SLOT_DONE
      else (p.wr HUSK_FW_STATUS_SLOT_STATE 2).set1 HUSK_EVENTS_FW_SLOT_FAILED
    let p := match p.boot.slotIssue with
      | none => p
      | some c => (p.modBoot fun b => { b with slotIssue := none }).reply c stOK 0
    .next { s with part := p, serial := if ok then s.serial.write s.part.updBytes else s.serial.damage (p.rd HUSK_FW_STATUS_BUF_TYPE) }

/-! ## The firmware switch (R764, R765) -/

/-- FW_RESUME (R764, R765, R783): the new firmware goes on where the old one stopped; FW_ACTIVATE completes with the new version. -/
def execFwResume (now : Nat) (s : State) : Host.Outcome State Fault Refusal :=
  s.onPart fun p =>
    if !p.repair.fwOld then p
    else
      let v := p.repair.fwNewVersion
      let c := p.repair.fwIssue
      let p := (p.at now).modRepair fun q => { q with fwOld := false, fwIssue := none }
      let p := p.modBoot fun b => { b with fwDigest := sha256 p.updBytes }
      let p := ((p.wr GLOBAL_REPAIR_STATUS_FW_SWITCH 0).wr GLOBAL_REPAIR_STATUS_FW_VERSION v).inc HUSK_FW_STATUS_LIVE_UPDATES
      let p := p.log 0 5 15 p.dev 0 14 v
      let p := foldL p.host.sqs p fun e p => p.fetchSlot (e.1 / 32) (e.1 % 32)
      match c with
      | none => p
      | some c => p.reply c stOK v

/-! ## The Husk watchdog (R467, R765, R791–R793) -/

def Part.ctxRuns (p : Part) (c : Nat) : Bool := (p.rd HUSK_WDOG_RUN_MASK).testBit c

/-- A context that has not run before starts (its watchdog counts from now). -/
def Part.ctxStarts (p : Part) (c : Nat) : Part :=
  if p.ctxRuns c then p
  else (p.wr HUSK_WDOG_RUN_MASK (p.rd HUSK_WDOG_RUN_MASK + 2 ^ c)).modBoot fun b => { b with kicks := mput 0 b.kicks c p.now }

/-- When the watchdog of a context expires. -/
def Part.ctxLimit (p : Part) (c : Nat) : Nat := mget 0 p.boot.kicks c + ms (p.rd HUSK_WDOG_TIMEOUT_MS)

/-- What a context holds is revoked, and it starts again at its entry point (R467, R792). -/
def Part.ctxRestart (p : Part) (c : Nat) : Part :=
  let p := ((p.revoke scFirmware c).inc HUSK_WDOG_RESTARTS).wr HUSK_WDOG_LAST_CTX c
  (p.modBoot fun b => { b with kicks := mput 0 b.kicks c p.now }).log 2 5 11 c 0 13 0 { origin := 2, unit := c }

/-- The watchdog fires for contexts: the fourth time within 60 s is fatal (R792, R793). -/
def Part.watchdog (p : Part) (cs : List Nat) : Part :=
  let p := (foldL cs p fun c p => p.ctxRestart c).set1 HUSK_EVENTS_WDOG_FIRED
  let p := p.modBoot fun b => { b with restarts := (b.restarts.filter fun t => p.now < t + ms 60000) ++ [p.now] }
  if 4 ≤ p.boot.restarts.length then (p.set1 HUSK_EVENTS_RESTART_LIMIT).goFatal 5 11 (cs.headD 0) 0 else p

/-- FW_RESUME_TIMEOUT (R765): 50 ms after the switch the new firmware has not resumed. -/
def execFwResumeTimeout (now : Nat) (s : State) : Host.Outcome State Fault Refusal :=
  s.onPart fun p =>
    if !p.repair.fwOld || max now p.now < p.repair.fwSince + ms 50 then p
    else
      let p := p.at now
      (p.modRepair fun q => { q with fwSince := p.now }).watchdog (List.range 16)

/-- KICK (R792): it does not help a context whose time is over. -/
def execKick (ctx : CtxId) (now : Nat) (s : State) : Host.Outcome State Fault Refusal :=
  s.onPart fun p =>
    let p := p.at now
    if p.ctxRuns ctx && decide (p.ctxLimit ctx ≤ p.now) then p
    else (p.ctxStarts ctx).modBoot fun b => { b with kicks := mput 0 b.kicks ctx p.now }

/-- WATCHDOG_EXPIRY (R467, R792, R793). -/
def execWatchdogExpiry (ctx : CtxId) (now : Nat) (s : State) : Host.Outcome State Fault Refusal :=
  s.onPart fun p => if !p.ctxRuns ctx || max now p.now < p.ctxLimit ctx then p else (p.at now).watchdog [ctx.val]

/-! ## Accesses of the control cores (R53, R341, R791) -/

/-- Some range of HUSK_FW_WIN grants the access. -/
def Part.fwGranted (p : Part) (write : Bool) (a n : Nat) : Bool := (List.range 16).any fun j =>
  p.rd HUSK_FW_WIN0_VALID 0 j = 1 && (if write then p.rd HUSK_FW_WIN1_WRITE 0 j else p.rd HUSK_FW_WIN1_READ 0 j) = 1 &&
  decide (p.rd HUSK_FW_WIN0_BASE 0 j ≤ a) && decide (a + n ≤ p.rd HUSK_FW_WIN0_BASE 0 j + 4096 * p.rd HUSK_FW_WIN1_SIZE_4K 0 j)

/-- A store that would reach the HUSK block (R60, R791). -/
def inHusk (a n : Nat) : Bool := decide (a < csBase + 0x30000) && decide (csBase + 0x20000 < a + n)

/-- The first violation is captured, the watchdog of its context fires at once (R791, R797). -/
def Part.fwViolation (p : Part) (c : Nat) (write : Bool) (a n : Nat) : Part :=
  let p := if p.rd HUSK_VIOL_VALID = 1 then p
    else p.setReg reg_HUSK_VIOL (setB (setB (setB (setB 0 0 48 a) 48 4 c) 52 1 (b2n write)) 63 1 1)
  let p := (p.set1 HUSK_EVENTS_MEM_VIOLATION).watchdog [c]
  if write then p else p.emit (.coreData c (some (List.replicate n 0)))

/-- An access to the local-array aperture: the named tile and the offset, below its scratchpad size (R49, R53). -/
def Part.arrayAt (p : Part) (a n : Nat) : Option (Nat × Nat) :=
  let t := (a - arrBase) / 0x80000
  let o := (a - arrBase) % 0x80000
  if inArr a && o + n ≤ p.scratch t then some (t, o) else none

/-- A granted access is performed; one that reaches an unassigned address is rejected with ADDR_RANGE (R50). -/
def Part.fwAccess (p : Part) (c : Nat) (write : Bool) (a n : Nat) (data : List Byte) : Part :=
  if inCs a then
    if write then (p.csWrite (a - csBase) n (BitVec.ofNat 64 (leNat data))).getD (p.emit (.coreData c none))
    else match p.csRead (a - csBase) n with
      | some (v, p) => p.emit (.coreData c (some (leBytes n v.toNat)))
      | none => p.emit (.coreData c none)
  else match p.arrayAt a n with
    | some (t, o) =>
      if write then p.modTile t fun x => { x with arr := putBuf x.arr o data }
      else p.emit (.coreData c (some ((List.range n).map fun i => mget 0 (p.tile t).arr (o + i))))
    | none =>
      if !p.hasHome a || !p.hasHome (a + n - 1) then p.emit (.coreData c none)
      else if write then p.storeRange a data
      else
        let (p, bs, _) := p.readRange a n
        p.emit (.coreData c (some bs))

/-- CONTROL_CORE_LOAD_STORE (R341, R791): outside every granting range a load returns zero and a store is dropped. -/
def execControlCoreLoadStore (ctx : CtxId) (write : Bool) (addr len : Nat) (data : List Byte) (s : State) : Host.Outcome State Fault Refusal :=
  s.onPart fun p =>
    let n := if write then data.length else len
    let p := p.ctxStarts ctx
    if p.stage ≠ 7 || n = 0 then p
    else if p.fwGranted write addr n && !(write && inHusk addr n) then p.fwAccess ctx write addr n data
    else p.fwViolation ctx write addr n

/-! ## Attestation (R777–R780) -/

/-- Exactly `n` bytes. -/
def fix (n : Nat) (bs : List Byte) : List Byte := (bs ++ List.replicate n 0).take n

/-- The part has lost its identity as a whole (R777). -/
def Part.noIdentity (p : Part) : Bool := p.rd HUSK_STATUS_ID_FAIL = 0xFFFF

/-- A digest known from the object's bytes, or the constant that stands for it (log 9). -/
def knownDigest (known : List Byte) (kind version : Nat) : List Byte := fix 32 (if known.isEmpty then Config.attestDigest kind version else known)

/-- The repair maps in force, as numbers: bypass maps, slice remaps, retired units, lost stacks. -/
def Part.repairMaps (p : Part) : List Nat :=
  let q := p.repair
  q.bypass.flatMap (fun c => [c.1, c.2]) ++ [0x10000] ++ q.sliceMap.flatMap (fun c => [c.1, c.2]) ++
  [0x10000, q.retiredPods.toNat, q.retiredDies.toNat, (p.hbm.lost.map (· + 1)).getD 0]

/-- Bytes 0–319 of the quote (R779). -/
def State.quote (s : State) (nonce : List Byte) : List Byte :=
  let p := s.part
  leBytes 4 1 ++ fix 64 nonce ++ leBytes 8 p.tickNo ++ leBytes 8 p.ns ++ leBytes 1 p.dev ++ leBytes 1 (p.rd HUSK_STATUS_SEALED) ++
  leBytes 2 (p.rd HUSK_STATUS_ID_FAIL) ++ leBytes 4 (p.rd GLOBAL_REPAIR_STATUS_FW_VERSION) ++ leBytes 4 (p.rd HUSK_FW_STATUS_LIVE_UPDATES) ++
  knownDigest p.boot.fwDigest 0 (p.rd GLOBAL_REPAIR_STATUS_FW_VERSION) ++ knownDigest p.boot.cfg.digest 1 p.boot.cfg.version ++
  fix 32 (Config.repairDigest p.repairMaps) ++ (List.range 4).flatMap (fun i => leBytes 8 (p.rd HUSK_DIGEST_VALUE 0 i)) ++
  knownDigest s.serial.ownerDigest 2 0 ++ fix 16 s.serial.packageSerial ++ List.replicate 48 0

/-- GET_ATTEST (R748, R777, R779, R780). -/
def execGetAttest (c : Issue) (nonce : List Byte) (s : State) : Host.Outcome State Fault Refusal :=
  s.onAny fun p => p.command c 40 fun p =>
    if p.noIdentity then p.reply c stBadState 0
    else
      let q := ({ s with part := p } : State).quote nonce
      p.output c (q ++ fix 384 (Config.quoteSignature q))

/-- As many whole certificates from number `i` as fit: their bytes and the number after the last. -/
def certsFrom : Nat → Nat → Nat → List Byte × Nat
  | 0, i, _ => ([], i)
  | n + 1, i, room =>
    let x := Config.certificate i
    if 17 ≤ i || room < x.length then ([], i)
    else
      let (bs, j) := certsFrom n (i + 1) (room - x.length)
      (x ++ bs, j)

/-- GET_CERTS (R777, R778). -/
def execGetCerts (c : Issue) (cursor : Nat) (s : State) : Host.Outcome State Fault Refusal :=
  s.onPart fun p => p.command c 41 fun p =>
    if p.noIdentity then p.reply c stBadState 0
    else
      let (bs, j) := certsFrom 17 cursor c.outLen
      p.reply c stOK (bs.length + 2 ^ 32 * (if 17 ≤ j then 0 else j)) bs

end Sys2Proof.Machine
end

