-- ==== Sys2Proof/Machine/Hbm.lean ====
section
/-! DEFINITION. Machine/Hbm.lean: bring-up of the stacks, refresh, patrol scrub, weight repair, rows, loss of a stack and migration, traffic
generators (12). -/

namespace Sys2Proof.Machine

def Part.modHbm (p : Part) (f : Hbm → Hbm) : Part := { p with hbm := f p.hbm }

/-! ## Refresh and scrub (R533, R537) -/

/-- REFRESH (R533, R559): the stack's hottest die decides the interval. -/
def execRefresh (st : StackId) (temp : Nat) (s : State) : Host.Outcome State Fault Refusal :=
  s.onPart fun p =>
    if p.rd HBM_STATUS_STATE st = 0 then p
    else (p.wr HBM_STATUS_TEMP (min 255 temp) st).wr HBM_STATUS_REFRESH_2X (b2n (decide (85 < temp))) st

/-- The address under which a slice holds the line stored at `x`: itself, or the control-window address it backs (R828). -/
def Part.slicedAs (p : Part) (x : Nat) : Nat :=
  match (List.range 64).find? fun n => p.winValid n && p.winType n = 1 && decide (p.winBacking n ≤ x) && decide (x < p.winBacking n + p.winSize n) with
  | some n => p.winBase n + (x - p.winBacking n)
  | none => x

/-- A sector in HBM takes the POISON mark; a slice that holds it goes on with its own data (R536, R537, R552). -/
def Part.markSector (p : Part) (x : Nat) : Part :=
  let a := p.slicedAs x
  if p.poison.contains x then p
  else if p.hit (p.served a) a then p.modHbm fun h => { h with marks := insNat h.marks x }
  else { p with poison := insNat p.poison x }

/-- One sector as the scrubber reads it: errors are counted as for any read; an uncorrectable sector is rewritten with the POISON mark. -/
def Part.scrubSector (p : Part) (x : Nat) (err : EccErr) : Part :=
  let pc := p.channelOf x
  let st := pc / 32
  let row := Config.rowOf (lineOf x)
  if p.poison.contains x || p.hbm.marks.contains x then p.inc HBM_ECC_POISON_READS 1 st
  else match err with
    | .ok => p
    | .ce => (p.inc HBM_ECC_CE 1 st).rowCorrected pc row (sectorOf x)
    | _ => ((p.ueFound x pc {}).markSector x).rowFails pc row

/-- PATROL_SCRUB (R535–R537, R545–R547): one line read and rewritten indivisibly. -/
def execPatrolScrub (line : Nat) (err : EccErr) (errSector : Fin 4) (lastOfPass : Bool) (s : State) : Host.Outcome State Fault Refusal :=
  s.onPart fun p =>
    let l := lineOf line
    let st := p.channelOf l / 32
    if !p.hbmIn l || p.isDead l || p.rd HBM_CFG_SCRUB_HOURS = 0 || !(p.rd HBM_STATUS_STATE st = 2 || p.rd HBM_STATUS_STATE st = 3) then p
    else
      let p := foldN 4 p fun k p => p.scrubSector (l + 64 * k) (if k = errSector.val then err else .ok)
      if lastOfPass then p.set1 HBM_EVENTS_SCRUB_DONE st else p

/-- ROW_COPY_DONE (R546, R559): the row's accesses go to the spare. -/
def execRowCopyDone (pc row : Nat) (s : State) : Host.Outcome State Fault Refusal :=
  s.onPart fun p =>
    if !p.hbm.copying.contains (pc, row) then p
    else
      let p := p.modHbm fun h => { h with copying := h.copying.filter (· ≠ (pc, row)), remap := h.remap ++ [(pc, row)] }
      let n := (p.hbm.remap.filter fun r => r.1 = pc).length
      (p.set1 HBM_EVENTS_ROW_REMAPPED (pc / 32)).wr HBM_STATUS_REMAP_MAX (max n (p.rd HBM_STATUS_REMAP_MAX (pc / 32))) (pc / 32)

/-! ## Weight repair (R538–R543) -/

/-- The open repair of a block. -/
def Part.repairOf (p : Part) (block : Nat) : Option BlockRepair := p.hbm.repairs.find? fun r => r.block = block
def Part.setRepair (p : Part) (r : BlockRepair) : Part :=
  p.modHbm fun h => { h with repairs := h.repairs.map fun x => if x.block = r.block then r else x }

/-- A repair closes; the oldest block that waits for a place opens (R539). -/
def Part.closeRepair (p : Part) (block w : Nat) : Part :=
  let p := (p.modHbm fun h => { h with repairs := h.repairs.filter fun x => x.block ≠ block, waiting := h.waiting.filter fun x => x.1 ≠ block }).goldPending w
  match p.hbm.waiting with
  | (b, v, t0) :: rest =>
    if p.hbm.repairs.length < 64 then
      (p.modHbm fun h => { h with waiting := rest, repairs := h.repairs ++ [p.newRepair b v t0] }).goldPending v
    else p
  | [] => p

/-- One second in tenths of a nanosecond: the limit of R542. -/
def repairLimit : Nat := ms 1000

/-- A block whose stack is lost and that has not been moved: its timer has not started (R553). -/
def Part.unmoved (p : Part) (b : Nat) : Bool := p.hbm.lost.isSome && !p.moved736 (b / 0x100000)

/-- GOLDEN_DATA (R414, R540, R542, R562): 4 KiB from the source in use. Good data rewrites the block and tells the recorded functions; poisoned data
makes the next source be tried. -/
def execGoldenData (block : Nat) (data : List Byte) (poisoned : Bool) (now : Nat) (s : State) : Host.Outcome State Fault Refusal :=
  s.onPart fun p => match p.repairOf block with
    | none => p
    | some r =>
      let p' := p.at now
      let late := r.src = 0 && p.goldKindOf r.win 1 ≠ 0 && decide (r.since + ms 500 < p'.now)
      if r.idle || data.length ≠ 4096 || late || (r.t0 + repairLimit < p'.now && !p.unmoved block) then p
      else if poisoned then p'.setRepair (p'.trySource r (r.src + 1))
      else
        let p := p'.storeRange block data
        let p := (p.inc HBM_GOLD_STATE_REPAIRED 1 0 r.win).closeRepair block r.win
        let p := foldL r.fns p fun f p => p.event f 0x201 (r.win + block)
        p.log 1 7 13 r.win 0 5 block

/-- SOURCE_LIMIT (R542): source 0 has not delivered within 500 ms, and there is a source 1. -/
def execSourceLimit (block : Nat) (now : Nat) (s : State) : Host.Outcome State Fault Refusal :=
  s.onPart fun p => match p.repairOf block with
    | none => p
    | some r =>
      let p' := p.at now
      if r.idle || r.src ≠ 0 || p.goldKindOf r.win 1 = 0 || p'.now < r.since + ms 500 then p else p'.setRepair (p'.trySource r 1)

/-- REPAIR_RETRY (R542): 10 ms after every source failed the sources are tried again. -/
def execRepairRetry (block : Nat) (now : Nat) (s : State) : Host.Outcome State Fault Refusal :=
  s.onPart fun p => match p.repairOf block with
    | none => p
    | some r =>
      let p' := p.at now
      if !r.idle || p'.now < r.since + ms 10 then p else p'.setRepair (p'.trySource r 0)

/-- WINDOW_DEGRADED (R542, R543, R562): one second after the first error, open or waiting for a place. -/
def execWindowDegraded (block : Nat) (now : Nat) (s : State) : Host.Outcome State Fault Refusal :=
  s.onPart fun p =>
    let due := ((p.repairOf block).map fun r => (r.win, r.t0)).orElse fun _ => (p.hbm.waiting.find? fun c => c.1 = block).map (·.2)
    match due with
    | none => p
    | some (w, t0) =>
      let p' := p.at now
      if p'.now < t0 + repairLimit || p.unmoved block then p
      else
        let p := (p'.wr LLC_WIN_ATTR_DEGRADED 1 0 w).inc HBM_GOLD_STATE_FAILED 1 0 w
        let p := p.modHbm fun h => { h with failed := (h.failed.filter fun c => c.2.1 ≠ block) ++ [(w, block, (0 : W64))] }
        ((p.closeRepair block w).event 0 0x202 (w + 256)).log 2 7 13 w mWeightDegraded 0 block

/-! ## Loss of a stack and migration (R548–R554) -/

/-- The dead marks of a lost stack are lost with it: its lines read as poisoned (R549). -/
def Part.deadLost (p : Part) (st : Nat) : Part :=
  foldL (p.dead.filter fun x => inHbm x && p.channelOf x / 32 = st) p fun x p =>
    { p with dead := delNat p.dead x, poison := [0, 64, 128, 192].foldl (fun l k => insNat l (x + k)) p.poison }

/-- A stack is out of service for good (R548): STACK_LOST is posted. A second one is fatal (R554). -/
def Part.loseStack (p : Part) (st state : Nat) : Part :=
  let second := p.hbm.lost.isSome
  let p := ((p.wr HBM_STATUS_STATE state st).set1 HBM_EVENTS_STACK_LOST st).event 0 0x204 st
  let p := p.log 2 5 7 st 0 9 0
  if second then p.goFatal 5 15 p.dev 0 else p.modHbm fun h => { h with lost := some st }

/-- STACK_LOST (R548, R549, R551, R554): the migration will start. A loss while an evacuation migrates is a second one. -/
def execStackLost (st : StackId) (now : Nat) (s : State) : Host.Outcome State Fault Refusal :=
  s.onPart fun p =>
    let state := p.rd HBM_STATUS_STATE st
    if state = 0 || state = 4 || state = 6 then p
    else
      let p := p.at now
      if p.hbm.lost.isSome then p.loseStack st 4
      else if p.hbm.evac.isSome then (p.loseStack st 4).goFatal 5 15 p.dev 0
      else (((p.deadLost st).loseStack st 4).wr HBM_MIGRATE_LOST_STACK st).wr HBM_MIGRATE_STATE 1

/-- STACK_EVACUATE (R548, R549, R551): it completes when every line has moved. -/
def execStackEvacuate (c : Issue) (st : StackId) (s : State) : Host.Outcome State Fault Refusal :=
  s.onPart fun p => p.command c 22 fun p =>
    if p.rd HBM_STATUS_STATE st ≠ 2 || p.hbm.lost.isSome || p.hbm.evac.isSome then p.reply c stBadState 0
    else
      let p := p.modHbm fun h => { h with evac := some (st.val, c) }
      ((p.wr HBM_STATUS_STATE 3 st).wr HBM_MIGRATE_LOST_STACK st).wr HBM_MIGRATE_STATE 1

/-- A window lies in the shed range, or is backed there (R551, R828). -/
def Part.shedUsed (p : Part) : Bool := (List.range 64).any fun n =>
  p.winValid n && (overlap (p.winBase n) (p.winSize n) 0x8A00000000 0x600000000 ||
    (p.winType n = 1 && overlap (p.winBacking n) (p.winSize n) 0x8A00000000 0x600000000))

/-- MIGRATION_START (R551). -/
def execMigrationStart (s : State) : Host.Outcome State Fault Refusal :=
  s.onPart fun p =>
    if p.rd HBM_MIGRATE_STATE ≠ 1 || p.shedUsed then p
    else ((p.modHbm fun h => { h with moved := [] }).wr HBM_MIGRATE_BLOCKS_DONE 0).wr HBM_MIGRATE_STATE 2

/-- 1 MiB blocks of the range that stays. -/
def stayBlocks : Nat := 565248

/-- Rank of a block in the order of R552: SHARED_IMM windows, KEEP windows, the rest. -/
def Part.blockRank (p : Part) (b : Nat) : Nat :=
  let has (f : Nat → Bool) : Bool := (List.range 64).any fun n =>
    p.winValid n && f n && (overlap (p.winBase n) (p.winSize n) (0x100000 * b) 0x100000 ||
      (p.winType n = 1 && overlap (p.winBacking n) (p.winSize n) (0x100000 * b) 0x100000))
  if has p.winShared then 0 else if has fun n => p.rd LLC_WIN_ATTR_KEEP 0 n = 1 then 1 else 2

/-- The block that moves next. -/
def Part.nextBlock (p : Part) : Option Nat :=
  let left := (List.range stayBlocks).filter fun b => !p.hbm.moved.contains b
  [0, 1, 2].findSome? fun k => left.find? fun b => p.blockRank b = k

/-- The lines of a block that lie on the lost stack come to their new places with the POISON mark (R552). -/
def Part.poisonLost (p : Part) (b : Nat) : Part :=
  foldN 4096 p fun i p =>
    let l := 0x100000 * b + 256 * i
    if !p.stackGone (p.channelOf l / 32) then p
    else
      let p : Part := { p with dead := delNat p.dead l }
      foldN 4 p fun k p => p.markSector (l + 64 * k)

/-- The migration has moved every block (R548, R550): the 552 GiB map holds; an evacuated stack is lost only now. -/
def Part.migrated (p : Part) : Part :=
  let p := (p.modHbm fun h => { h with map736 := true, moved := [] }).wr HBM_MIGRATE_STATE 3
  match p.hbm.evac with
  | none => p
  | some (st, c) => ((p.modHbm fun h => { h with evac := none }).loseStack st 4).reply c stOK 0

/-- MIGRATION_BLOCK (R549–R553): the next block moves; repairs of its blocks on a lost stack start their second. -/
def execMigrationBlock (s : State) : Host.Outcome State Fault Refusal :=
  s.onPart fun p =>
    if p.rd HBM_MIGRATE_STATE ≠ 2 then p
    else match p.nextBlock with
      | none => p.migrated
      | some b =>
        let p := p.poisonLost b
        let p := p.modHbm fun h => { h with moved := h.moved ++ [b]
                                            repairs := h.repairs.map fun r => if h.lost.isSome && r.block / 0x100000 = b then { r with t0 := p.now } else r }
        let p := p.inc HBM_MIGRATE_BLOCKS_DONE
        if p.hbm.moved.length = stayBlocks then p.migrated else p

/-! ## Bring-up (R531, R532) -/

/-- A stack that fails training: the part comes up without it, on the 552 GiB map (R532, R548, R554). -/
def Part.trainFails (p : Part) (st : Nat) : Part :=
  let p := p.modHbm fun h => { h with train := mput 0 h.train st 0 }
  let p := p.loseStack st 6
  if p.fatal then p
  else ((p.modHbm fun h => { h with map736 := true }).wr HBM_MIGRATE_LOST_STACK st).wr HBM_MIGRATE_STATE 3

/-- One state of R532 ends: `step` is its place in the order. -/
def Part.trainStep (p : Part) (st step : Nat) (ok : Bool) (act : Part → Part) : Part :=
  if mget 0 p.hbm.train st ≠ step then p
  else if !ok then p.trainFails st
  else act (p.modHbm fun h => { h with train := mput 0 h.train st (step + 1) })

/-- HBM_RESET (R531, R532): the first state of a stack's bring-up, in the Running stage. -/
def execHbmReset (st : StackId) (ok : Bool) (s : State) : Host.Outcome State Fault Refusal :=
  s.onPart fun p =>
    if p.stage ≠ 7 || p.rd HBM_STATUS_STATE st ≠ 0 || p.hbm.lost = some st.val then p
    else p.trainStep st 0 ok fun p => p.wr HBM_STATUS_STATE 1 st

/-- HBM_CALIBRATE (R532). -/
def execHbmCalibrate (st : StackId) (ok : Bool) (s : State) : Host.Outcome State Fault Refusal := s.onPart fun p => p.trainStep st 1 ok id

/-- HBM_LANE (R531, R532). -/
def execHbmLane (st : StackId) (ok : Bool) (s : State) : Host.Outcome State Fault Refusal := s.onPart fun p => p.trainStep st 2 ok id

/-- HBM_REPAIR (R532, R546): hard repair frees the stack's remap entries. -/
def execHbmRepair (st : StackId) (ok : Bool) (s : State) : Host.Outcome State Fault Refusal :=
  s.onPart fun p => p.trainStep st 3 ok fun p =>
    ((p.modHbm fun h => { h with remap := h.remap.filter fun r => r.1 / 32 ≠ st.val }).wr HBM_STATUS_REMAP_MAX 0 st).wr HBM_STATUS_STATE stTest st

/-- HBM_TEST (R532): the stack enters service. -/
def execHbmTest (st : StackId) (ok : Bool) (s : State) : Host.Outcome State Fault Refusal :=
  s.onPart fun p => p.trainStep st 4 ok fun p => p.wr HBM_STATUS_STATE stInService st

/-! ## Traffic generators (R555, R556, R563) -/

/-- TG_START (R555, R559). -/
def execTgStart (st : StackId) (ch : Fin 16) (s : State) : Host.Outcome State Fault Refusal := s.onPart fun p => p.tgStart st ch

/-- TG_DONE (R556, R559, R563): sectors and miscompares counted; the first miscompare is captured while VALID is 0, as HBM_TG_FAIL shows it. -/
def execTgDone (st : StackId) (ch : Fin 16) (sectors miscompares : Nat) (first : Option W64) (s : State) : Host.Outcome State Fault Refusal :=
  s.onPart fun p =>
    if p.rd HBM_TG_CTL_BUSY st ch = 0 then p
    else
      let p := p.wr HBM_TG_CTL_BUSY 0 st ch
      let p := (p.inc HBM_TG_RESULT_SECTORS sectors st ch).inc HBM_TG_RESULT_MISCOMPARES miscompares st ch
      let p := match first with
        | some w => if p.rd HBM_TG_FAIL_VALID st ch = 1 then p else p.setReg reg_HBM_TG_FAIL (setB w 31 1 1) st ch
        | none => p
      p.set1 HBM_EVENTS_TG_DONE st

end Sys2Proof.Machine
end

