-- ==== Sys2Proof/Machine/Boot.lean ====
section
/-! DEFINITION. Machine/Boot.lean: package reset, the stages of the boot, Recovery, what the Sealed stage loads (19, 20). HUSK_STATUS.STAGE is the
number of the stage under way; the row of a stage is its end. -/

namespace Sys2Proof.Machine

/-! ## Package reset (R735, R786, R819–R823) -/

/-- POR_N_ASSERT (R735, R786, R819, R822): every unit is reset; serial memory, the pins, and THERMTRIP_N until power is removed, keep their state. A region
that was being written is damaged. -/
def execPorNAssert (s : State) : Host.Outcome State Fault Refusal :=
  let p := s.part
  let busy := p.rd HUSK_FW_STATUS_SLOT_STATE = 1
  .next { s with
    part := { freeCtr := p.freeCtr, mgmt := { thermTripN := p.mgmt.thermTripN || !s.pins.railsOk } }
    serial := if busy then s.serial.damage (p.rd HUSK_FW_STATUS_BUF_TYPE) else s.serial
    pins := { s.pins with porN := false, inReset := true } }

/-- POR_N_RELEASE (R769, R810, R818, R820): MG_SEL and the address straps are sampled; reset ends where the rails are up. A JTAG instruction that drives
lands acts as BYPASS from here on. -/
def execPorNRelease (mgSel : Bool) (mgAddr : BitVec 2) (s : State) : Host.Outcome State Fault Refusal :=
  .next (if s.pins.porN then s
  else { s with
    part := { s.part with mgmt := { s.part.mgmt with i3c := mgSel, addr := mgAddr } }
    pins := { s.pins with porN := true, inReset := !s.pins.railsOk } })

/-- RAIL_IN_REGULATION (R820): VIO, VTB0–3 and VCD0–11 are above 90 % of their start voltages. -/
def execRailInRegulation (s : State) : Host.Outcome State Fault Refusal :=
  .next { s with pins := { s.pins with railsOk := true, inReset := s.pins.inReset && !s.pins.porN } }

/-- A rail of R820, by its number in R703: VCD, VTB, VIO. -/
def resetRail (r : Nat) : Bool := r < 16 || r = 32

/-- RAIL_LOSS (R747, R820, R824): of VCDd a die is retired, of VTBt the tuber is lost, of any other rail the package. -/
def execRailLoss (rail : RailId) (s : State) : Host.Outcome State Fault Refusal :=
  ({ s with pins := { s.pins with railsOk := s.pins.railsOk && !resetRail rail } } : State).onPart fun p =>
    if rail.val < 12 then p.dieFails rail
    else if rail.val < 16 then p.tuberLost (rail.val - 12)
    else p.goFatal 5 15 p.dev 0

/-! ## Stages (R769–R777) -/

/-- The stage ends: STAGE becomes `next`, or 8, Recovery, where its check failed. -/
def Part.stageEnds (p : Part) (ok : Bool) (next : Nat) : Part := p.wr HUSK_STATUS_STAGE (if ok then next else 8)

/-- HEADER (R769): boot header and root public key. The ROM's own start, stage 0, needs no check. -/
def execHeader (s : State) : Host.Outcome State Fault Refusal :=
  .next (if s.pins.inReset || 1 < s.part.stage then s else { s with part := s.part.stageEnds s.serial.headerOk 2 })

/-- OWNER (R769): the owner certificate. -/
def execOwner (s : State) : Host.Outcome State Fault Refusal :=
  .next (if s.pins.inReset || s.part.stage ≠ 2 then s else { s with part := s.part.stageEnds s.serial.ownerOk 3 })

/-- A copy verifies (R773, R794). -/
def CfgCopy.usable (c : CfgCopy) : Bool := c.valid && c.bounded

/-- The configuration copy in use: the valid one with the higher VERSION, A when they are equal; `true` is copy B (R773). -/
def Serial.choice (x : Serial) : Option (Bool × CfgCopy) :=
  if x.cfgA.usable && (!x.cfgB.usable || decide (x.cfgB.version ≤ x.cfgA.version)) then some (false, x.cfgA)
  else if x.cfgB.usable then some (true, x.cfgB)
  else none

/-- CONFIG (R773, R794). -/
def execConfig (s : State) : Host.Outcome State Fault Refusal :=
  .next (if s.pins.inReset || s.part.stage ≠ 3 then s
  else match s.serial.choice with
    | none => { s with part := s.part.stageEnds false 4 }
    | some (b, c) =>
      let p := s.part.modBoot fun x => { x with cfg := c }
      { s with part := ((p.wr HUSK_STATUS_CFG_COPY (b2n b)).wr HUSK_STATUS_CFG_SEQ c.version).stageEnds true 4 })

/-- FIRMWARE (R770, R774): the image of the firmware slot, no older than MIN_FW_VERSION. -/
def execFirmware (s : State) : Host.Outcome State Fault Refusal :=
  .next (if s.pins.inReset || s.part.stage ≠ 4 then s
  else
    let ok := s.serial.fwOk && decide (s.part.boot.cfg.minFw ≤ s.serial.fwVersion)
    let p := s.part.modBoot fun x => { x with fwDigest := s.serial.fwDigest }
    { s with part := if ok then (p.wr GLOBAL_REPAIR_STATUS_FW_VERSION s.serial.fwVersion).stageEnds true 5 else s.part.stageEnds false 5 })

/-- IDENTITY (R748, R760, R776, R777): a compute die that fails is retired, a tuber that fails makes the start fatal; with no identity at all nothing is
retired. -/
def execIdentity (failed : BitVec 16) (s : State) : Host.Outcome State Fault Refusal :=
  .next (if s.pins.inReset || s.part.stage ≠ 5 then s
  else
    let p := s.part.wr HUSK_STATUS_STAGE 6
    if !s.serial.identityOk then { s with part := p.wr HUSK_STATUS_ID_FAIL 0xFFFF }
    else
      let p := p.wr HUSK_STATUS_ID_FAIL failed.toNat
      let p := foldL ((List.range 12).filter fun d => failed.getLsbD d) p fun d p => p.applyRepair (.die d none)
      let p := foldL ((List.range 4).filter fun t => failed.getLsbD (12 + t)) p fun t p => p.goFatal 4 5 t 0
      { s with part := p })

/-! ## The Sealed stage (R71, R583–R585, R750, R789, R790) -/

/-- The bounds of the Husk. -/
def Part.loadBounds (p : Part) (c : CfgCopy) : Part :=
  let p := (((p.wr HUSK_CEIL_LIMIT_W c.limitW).wr HUSK_CEIL_VCD_MV c.vcdMv).wr HUSK_CEIL_T_HOT_C c.tHot).wr HUSK_CEIL_T_CRIT_C c.tCrit
  let p := ((p.wr HUSK_PORTS_ENABLE c.ports.toNat).wr HUSK_TILE_CS_READ c.tileRead.toNat).wr HUSK_TILE_CS_WRITE c.tileWrite.toNat
  let p := p.wr HUSK_WDOG_TIMEOUT_MS c.wdogMs
  let p := foldN 33 p fun r p => p.wr HUSK_RAIL_CEIL_LIMIT_DA (c.railCeil r) 0 r
  let p := foldN 16 p fun j p =>
    let w := c.fwWins.getD j (0, 0)
    (p.setReg reg_HUSK_FW_WIN0 w.1 0 j).setReg reg_HUSK_FW_WIN1 w.2 0 j
  let p := foldN 12 p fun j p =>
    let w := c.ingestWins.getD j (0, 0)
    (p.setReg reg_HUSK_INGEST_WIN0 w.1 0 j).setReg reg_HUSK_INGEST_WIN1 w.2 0 j
  let p := foldN 45 p fun i p => p.wr HUSK_OPC_CLASSES (c.classes i) 0 i
  let d := knownDigest c.boundsDigest 3 c.version
  foldN 4 p fun i p => p.setReg reg_HUSK_DIGEST (BitVec.ofNat 64 (leAt d (8 * i) 8)) 0 i

/-- The far end of port `i` by the topology (R583, R584): device and port; none where the port is spare or serves ingest. -/
def peerOf (topology dev ingest i : Nat) : Option (Nat × Nat) :=
  if topology = 1 then if i < 15 then some ((dev + i + 1) % 16, 14 - i) else none
  else if topology = 2 then
    if i < 15 then some (dev / 16 * 16 + (dev % 16 + i + 1) % 16, 14 - i)
    else if ingest = i - 14 then none
    else some ((dev / 16 + (i - 15) + 1) % 4 * 16 + dev % 16, 32 - i)
  else none

/-- What configuration says of the device, its domain and its ports. -/
def Part.loadDevice (p : Part) (c : CfgCopy) : Part :=
  let p := p.wr GLOBAL_DEV_DEV_ID c.devId
  let p := ((p.wr GLOBAL_DOMAIN_CFG_DOMAIN_ID c.domainId).wr GLOBAL_DOMAIN_CFG_TOPOLOGY c.topology).wr GLOBAL_DOMAIN_CFG_INGEST_SEL c.ingestSel
  let p := p.setReg reg_TICK_MASTER_CFG (c.master &&& 0x03FFFFFFFFFF01FF)
  let p := foldN 18 p fun i p =>
    let p := p.wr BLK_CFG_MODE (mget 0 c.modes i) i
    match peerOf c.topology c.devId c.ingestSel i with
    | none => p
    | some (d, q) => (p.wr BLK_CFG_EXPECT_DEV d i).wr BLK_CFG_EXPECT_PORT q i
  let p := p.modPower fun w => { w with curve := c.curve }
  p.ownMaster

/-- Retired regions and dies stay out of service through every start (R760): their tiles are powered down, a die's routers and rail as well. -/
def Part.keepRetired (p : Part) : Part :=
  let gate (ts : List Nat) (p : Part) : Part := foldL ts p fun t p => p.modTile t fun x => { x with gated := true }
  let p := foldN 48 p fun r p => if (regionPods r).all (inMask p.repair.retiredPods) then gate (regionTiles r) p else p
  foldN 12 p fun d p =>
    if p.repair.retiredDies.getLsbD d then
      let ts := (dieRegions d).flatMap regionTiles
      (foldL ts (gate ts p) fun t p => p.setRouter t { p.router t with dead := true }).wr PWR_RAIL1_TARGET_MV 0 0 d
    else p

/-- The repair records are applied (R750). -/
def Part.loadRecords (p : Part) (x : Serial) : Part :=
  let p := p.modRepair fun q =>
    { q with bypass := x.bypass, sliceMap := x.sliceMap, retiredPods := q.retiredPods ||| x.retiredPods, retiredDies := q.retiredDies ||| x.retiredDies,
             deadRouters := x.deadRouters, joins := x.joins, trims := x.trims }
  let p := foldL x.sliceMap p fun e p => p.wr LLC_STATUS_STATE 2 e.1
  let p := foldL (maskPods x.retiredPods) p fun q p => p.wr PD_CFG_STEP_POOL 0 q
  let p := foldL x.deadRouters p fun t p => p.setRouter t { p.router t with dead := true }
  let p := (foldL x.trims p fun e p => p.wr RGN_TRIM_TRIM_MV e.2 e.1).keepRetired
  let p := p.modHbm fun h => { h with remap := x.rows }
  match x.lostStack with
  | none => p
  | some h =>
    let p := p.modHbm fun z => { z with lost := some h, map736 := true }
    ((p.wr HBM_STATUS_STATE 4 h).wr HBM_MIGRATE_LOST_STACK h).wr HBM_MIGRATE_STATE 3

/-- SEALED (R71, R585, R750, R769, R789, R819): bounds are loaded and sealed, firmware runs. -/
def execSealed (s : State) : Host.Outcome State Fault Refusal :=
  .next (if s.pins.inReset || s.part.stage ≠ 6 then s
  else
    let c := s.part.boot.cfg
    let p := ((s.part.loadBounds c).loadDevice c).loadRecords s.serial
    let p := ((p.wr GLOBAL_INV_TUBERS_EN 4).wr HUSK_STATUS_SEALED 1).wr HUSK_STATUS_STAGE 7
    { s with part := { p with mgmt := { p.mgmt with alive := !p.fatal } } })

/-! ## Recovery (R787) -/

/-- The bytes pushed so far. -/
def Part.romBytes (p : Part) : List Byte := bufBytes p.boot.romBuf p.boot.romTop

/-- IMAGE_PUSH (R784, R787): into the ROM's buffer; once the bytes reach the object's LENGTH it is verified, written, and the boot starts again at the
Header stage. Firmware answers BAD_STATE. -/
def execImagePush (c : Issue) (offset : Nat) (chunk : List Byte) (s : State) : Host.Outcome State Fault Refusal :=
  let ours := !s.pins.inReset && s.part.stage = 8 && c.cls = .b
  if !ours then s.onPart fun p => p.command c 44 fun p => p.reply c stBadState 0
  else
    let p := s.part
    if offset % 8 ≠ 0 || 0x1000000 < offset + chunk.length then .next { s with part := p.reply c stBadParam 0 }
    else
      let p := p.modBoot fun b =>
        let b : Boot := if offset = 0 then { b with romBuf := [], romTop := 0 } else b
        { b with romBuf := putBuf b.romBuf offset chunk, romTop := max b.romTop (offset + chunk.length) }
      let obj := p.romBytes
      if obj.length < 32 || obj.length < leAt obj 8 4 then .next { s with part := p.reply c stOK 0 }
      else
        let p := p.modBoot fun b => { b with romBuf := [], romTop := 0 }
        if s.serial.verify p.boot.cfg.minFw obj then .next { s with part := (p.wr HUSK_STATUS_STAGE 1).reply c stOK 0, serial := s.serial.write obj }
        else .next { s with part := p.reply c stAuthFail 0 }

end Sys2Proof.Machine
end

