-- ==== Sys2Proof/Machine/Mgmt.lean ====
section
/-! DEFINITION. Machine/Mgmt.lean: the management port and the JTAG test access port (20). -/

namespace Sys2Proof.Machine

/-! ## Packets in fragments (R646, R648, R657, R658, R787, R812–R815) -/

def Part.modMgmt (p : Part) (f : Mgmt → Mgmt) : Part := { p with mgmt := f p.mgmt }

/-- A packet of class B whose header R648 rejects: no INDIRECT, FN 0, no reserved bit, its parameters whole. -/
def badPacket (x : List Byte) : Bool :=
  let flags := leAt x 2 2
  let len := leAt x 8 2
  x.length < 64 || 16 ≤ flags || flags.testBit 0 || 4096 < len || 64 ≤ leAt x 10 1 || leAt x 11 1 ≠ 0 || leAt x 24 40 ≠ 0 || x.length < 64 + len

/-- What its reply needs of a packet's header. -/
def packetIssue (x : List Byte) : Issue :=
  { op := BitVec.ofNat 16 (leAt x 0 2), cls := .b, fn := 0, sq := 0, tag := BitVec.ofNat 32 (leAt x 4 4), gen := BitVec.ofNat 32 (leAt x 12 4), notify := false,
    remote := none, origin := none, outLen := 0 }

/-- The last fragment has arrived: BUSY sets, and the packet goes to the Husk (in Recovery, to the ROM). What it does is the row of its opcode. -/
def Part.submit (p : Part) (x : List Byte) : Part :=
  let p := p.modMgmt fun m => { m with busy := true, rx := [], rxOpen := false }
  let c := packetIssue x
  if p.stage = 8 then
    if badPacket x then p.reply c stBadHeader 0 else if leAt x 0 2 = 1 || leAt x 0 2 = 0x0805 then p else p.reply c stBadState 0
  else if p.stage ≠ 7 then p
  else if badPacket x then p.reply c stBadHeader 0
  else match opIndex (leAt x 0 2) with
    | none => p.huskReject c (leAt x 0 2) stUnknownOpcode
    | some i => if p.admits i .b then p else p.huskReject c (leAt x 0 2) stClassDenied

/-- A packet is dropped for its sequence or its packet error code. -/
def Part.dropPacket (p : Part) : Part := p.modMgmt fun m => { m with error := true, rx := [], rxOpen := false }

/-- BLOCK_WRITE (R812, R814, R815): a fragment; byte 0 holds FIRST, LAST and the sequence number. Not acknowledged while BUSY. -/
def execBlockWrite (byte0 : BitVec 8) (data : List Byte) (pecOk : Bool) (s : State) : Host.Outcome State Fault Refusal :=
  s.onAny fun p =>
    let first := byte0.getLsbD 7
    let seq := byte0.toNat % 64
    if p.mgmt.busy then p
    else
      let p := if first then p.modMgmt fun m => { m with error := false, rx := [], rxOpen := true, rxSeq := 0 } else p
      if (!pecOk && !p.mgmt.i3c) || !p.mgmt.rxOpen || seq ≠ p.mgmt.rxSeq then p.dropPacket
      else
        let p := p.modMgmt fun m => { m with rx := m.rx ++ data, rxSeq := (seq + 1) % 64 }
        if byte0.getLsbD 6 then p.submit p.mgmt.rx else p

/-- BLOCK_READ (R649, R812, R814): the next fragment of the reply; with the last, BUSY and REPLY_READY clear. -/
def execBlockRead (s : State) : Host.Outcome State Fault Refusal :=
  s.onAny fun p =>
    let m := p.mgmt
    if !m.replyReady then p
    else
      let rest := m.reply.drop (240 * m.replySeq)
      let last := decide (rest.length ≤ 240)
      let b : Byte := BitVec.ofNat 8 (128 * b2n (decide (m.replySeq = 0)) + 64 * b2n last + m.replySeq % 64)
      let p := p.emit (.mgmtFragment (b :: rest.take 240))
      if last then p.modMgmt fun m => { m with busy := false, replyReady := false, reply := [], replySeq := 0 }
      else p.modMgmt fun m => { m with replySeq := m.replySeq + 1 }

/-- The bus status byte (R813). -/
def Part.busStatus (p : Part) : Byte :=
  BitVec.ofNat 8 (p.stage + 16 * b2n p.mgmt.replyReady + 32 * b2n p.mgmt.busy + 64 * b2n p.mgmt.error + 128 * b2n p.mgmt.alive)

/-- READ_BYTE (R813): in every stage. -/
def execReadByte (s : State) : Host.Outcome State Fault Refusal := s.onAny fun p => p.emit (.mgmtByte p.busStatus)

/-! ## Addresses and alerts (R810, R811, R814) -/

/-- The SMBus address, and the I3C static address (R810). -/
def Part.busAddr (p : Part) : BitVec 7 := BitVec.ofNat 7 (0x60 + p.mgmt.addr.toNat)

/-- A dynamic address is assigned, in I3C, to a part that has none. -/
def Part.assignAddr (p : Part) (a : BitVec 7) : Part :=
  if p.mgmt.i3c && p.mgmt.dynAddr.isNone then p.modMgmt fun m => { m with dynAddr := some a } else p

/-- SETDASA (R811). -/
def execSetdasa (addr : BitVec 7) (s : State) : Host.Outcome State Fault Refusal := s.onAny fun p => p.assignAddr addr

/-- ENTDAA (R811). -/
def execEntdaa (addr : BitVec 7) (s : State) : Host.Outcome State Fault Refusal := s.onAny fun p => p.assignAddr addr

/-- ALERT_RESPONSE_ADDRESS (R811, R814): on SMBus, a part that asserts MG_ALERT_N answers with its address and releases it. -/
def execAlertResponseAddress (s : State) : Host.Outcome State Fault Refusal :=
  s.onAny fun p => if p.mgmt.i3c || p.mgmt.mgAlertN then p else (p.modMgmt fun m => { m with mgAlertN := true }).emit (.mgmtAddress p.busAddr)

/-! ## JTAG (R816–R818) -/

/-- Instructions that drive lands, only while POR_N is low. -/
def JtagInstr.drives : JtagInstr → Bool
  | .extest => true
  | .extestPulse => true
  | .extestTrain => true
  | .clamp => true
  | .highz => true
  | _ => false

/-- The instruction as it acts (R818). -/
def Pins.acting (x : Pins) : JtagInstr := if x.jtag.drives && x.porN then .bypass else x.jtag

/-- The TAP takes an instruction. -/
def State.takeInstr (s : State) (i : JtagInstr) : State := { s with pins := { s.pins with jtag := i } }

/-- The identification code (R64, R817). -/
def Part.idcode (p : Part) : W32 :=
  BitVec.ofNat 32 ((4 * p.rd GLOBAL_PART_REV_LETTER + p.rd GLOBAL_PART_REV_STEP) % 16 * 2 ^ 28 + 0x1224 * 2 ^ 12 + 0x4B5 * 2 + 1)

/-- BYPASS (R816). -/
def execBypass (s : State) : Host.Outcome State Fault Refusal := .next (s.takeInstr .bypass)

/-- IDCODE (R816, R817). -/
def execIdcode (s : State) : Host.Outcome State Fault Refusal :=
  .next { s.takeInstr .idcode with part := s.part.emit (.jtag s.part.idcode) }

/-- SAMPLE/PRELOAD (R816, R818): the boundary register takes the value shifted in. -/
def execSamplePreload (value : List Bool) (s : State) : Host.Outcome State Fault Refusal :=
  .next { s with pins := { s.pins with jtag := .sample, boundary := value } }

/-- EXTEST (R818). -/
def execExtest (s : State) : Host.Outcome State Fault Refusal := .next (s.takeInstr .extest)

/-- EXTEST_PULSE (R816, R818). -/
def execExtestPulse (s : State) : Host.Outcome State Fault Refusal := .next (s.takeInstr .extestPulse)

/-- EXTEST_TRAIN (R816, R818). -/
def execExtestTrain (s : State) : Host.Outcome State Fault Refusal := .next (s.takeInstr .extestTrain)

/-- CLAMP (R818). -/
def execClamp (s : State) : Host.Outcome State Fault Refusal := .next (s.takeInstr .clamp)

/-- HIGHZ (R818). -/
def execHighz (s : State) : Host.Outcome State Fault Refusal := .next (s.takeInstr .highz)

/-- TRST_N (R816): the TAP is reset; IEEE 1149.1 then selects IDCODE. -/
def execTrstN (s : State) : Host.Outcome State Fault Refusal := .next (s.takeInstr .idcode)

end Sys2Proof.Machine
end

