-- ==== Sys2Proof/Machine/MmaMath.lean ====
section
/-! DEFINITION. Machine/MmaMath.lean: descriptors of the matrix unit and its exact chunk arithmetic (R191–R200, R231–R234, R256–R263). -/

namespace Sys2Proof.Machine

/-- An operand block of a descriptor (R194). -/
structure Operand where
  base   : Nat
  fmt    : Nat
  src    : Nat
  kouter : Bool
  prefetch : Bool
  stride : Nat
  scalePtr : Nat
  scaleStride : Nat
  metaPtr : Nat
  metaStride : Nat
  pmap   : Nat
  slot   : Nat
  stage  : Nat
  resv   : Bool
deriving DecidableEq, Repr

/-- A descriptor (R193). -/
structure Desc where
  m : Nat
  n : Nat
  kUnits : Nat
  accRow : Nat
  accCol : Nat
  accMode : Bool
  int32 : Bool
  sparse : Bool
  a : Operand
  b : Operand
  resv : Bool
deriving DecidableEq, Repr

/-- K of a descriptor. -/
def Desc.k (d : Desc) : Nat := 32 * d.kUnits

def decOperand (bs : List Byte) (o : Nat) : Operand :=
  let w (i : Nat) : Nat := leAt bs (o + 8 * i) 8
  { base := fld (w 0) 0 48, fmt := fld (w 0) 48 4, src := fld (w 0) 52 2, kouter := (w 0).testBit 54, prefetch := (w 0).testBit 55
    stride := fld (w 1) 0 32, scalePtr := fld (w 2) 0 19, scaleStride := fld (w 2) 48 16, metaPtr := fld (w 3) 0 19
    metaStride := fld (w 3) 48 16, pmap := fld (w 4) 0 48, slot := fld (w 4) 48 12, stage := fld (w 5) 0 19
    resv := fld (w 0) 56 8 ≠ 0 || fld (w 1) 32 32 ≠ 0 || fld (w 2) 19 29 ≠ 0 || fld (w 3) 19 29 ≠ 0 || fld (w 4) 60 4 ≠ 0 || fld (w 5) 19 45 ≠ 0 }

/-- The 128 bytes of a descriptor read as R191 to R194 give. -/
def decDesc (bs : List Byte) : Desc :=
  let w := leAt bs 0 8
  { m := fld w 0 7 + 1, n := fld w 8 7 + 1, kUnits := fld w 16 4, accRow := fld w 32 7, accCol := fld w 40 7
    accMode := w.testBit 48, int32 := w.testBit 49, sparse := w.testBit 50, a := decOperand bs 0x20, b := decOperand bs 0x50
    resv := fld w 7 1 ≠ 0 || fld w 15 1 ≠ 0 || fld w 20 12 ≠ 0 || fld w 39 1 ≠ 0 || fld w 47 1 ≠ 0 || fld w 51 13 ≠ 0 ||
            leAt bs 12 4 ≠ 0 || leAt bs 16 8 ≠ 0 || leAt bs 24 8 ≠ 0 }

/-- A pair of R199: dense and sparse k_c, the largest K, whether INT32 is allowed, and W of R257. -/
structure PairInfo where
  kc : Nat
  kcSparse : Option Nat
  kMax : Nat
  int32 : Bool
  w : Int
deriving DecidableEq, Repr

/-- The pairs of R199 with the term widths of R257; none for any other pair of formats. -/
def pairInfo (a b : Nat) : Option PairInfo :=
  match a, b with
  | 0, 0 => some ⟨2, none, 64, false, 16⟩
  | 1, 1 => some ⟨4, some 8, 128, false, 8⟩
  | 1, 2 => some ⟨4, some 8, 128, false, 7⟩
  | 2, 1 => some ⟨4, some 8, 128, false, 7⟩
  | 2, 2 => some ⟨4, some 8, 128, false, 6⟩
  | 3, 3 => some ⟨4, none, 128, true, 15⟩
  | 4, 4 => some ⟨8, none, 256, true, 7⟩
  | 5, 5 => some ⟨8, some 16, 256, false, 13⟩
  | 5, 1 => some ⟨8, none, 256, false, 11⟩
  | 5, 2 => some ⟨8, none, 256, false, 10⟩
  | 4, 1 => some ⟨8, none, 256, false, 7⟩
  | 4, 2 => some ⟨8, none, 256, false, 6⟩
  | _, _ => none

/-- Formats held two to a byte, and the bytes of `n` elements (R195). -/
def nibbles (fmt : Nat) : Bool := fmt = 4 || fmt = 5
def elemBytes (fmt n : Nat) : Nat := if nibbles fmt then n / 2 else if fmt = 0 then 2 * n else n

/-- Rows of an operand in memory: start and length in bytes. `outer` outer indices, `k` stored K values (R195). -/
def Operand.rows (o : Operand) (outer k : Nat) : List (Nat × Nat) :=
  if o.kouter then (List.range k).map fun j => (o.base + j * o.stride, elemBytes o.fmt outer)
  else (List.range outer).map fun i => (o.base + i * o.stride, elemBytes o.fmt k)

/-- The extent of an operand: its first byte and the byte after its last. -/
def Operand.extent (o : Operand) (outer k : Nat) : Nat × Nat :=
  if o.kouter then (o.base, o.base + (k - 1) * o.stride + elemBytes o.fmt outer)
  else (o.base, o.base + (outer - 1) * o.stride + elemBytes o.fmt k)

/-- Bytes of a staged row, and of the staging area (R212). -/
def Operand.stageRow (o : Operand) (k : Nat) : Nat := (elemBytes o.fmt k + 15) / 16 * 16

/-- K values stored for A: half of them when A is sparse (R231). -/
def Desc.ka (d : Desc) : Nat := if d.sparse then d.k / 2 else d.k

/-- Cycles of the array (R201). -/
def Desc.cycles (d : Desc) : Nat :=
  match pairInfo d.a.fmt d.b.fmt with
  | none => 0
  | some i =>
    let kc := if d.sparse then i.kcSparse.getD i.kc else i.kc
    (d.m + 15) / 16 * ((d.n + 15) / 16) * ((d.k + kc - 1) / kc)

/-- The element value of a code: integers, floats, and SB4 with its scale byte and fine step (R250–R253, R256). -/
def elemVal (fmt code scale fine : Nat) : FV :=
  match fmt with
  | 0 => decFloat pBf16 code
  | 1 => decFloat pE4m3 code
  | 2 => decFloat pE5m2 code
  | 3 => .fin (sint 8 code < 0) (sint 8 code).natAbs 0
  | 4 => .fin (sint 4 code < 0) (sint 4 code).natAbs 0
  | _ => if scale = 255 then .nan else .fin (code.testBit 3 && code % 8 ≠ 0) (e2m1 code * (4 + fine)) ((scale : Int) - 130)

/-- One term as a number of units 2^(X − 41), truncated toward zero, and whether truncation dropped part of it (R259). -/
def termUnits (x : Int) (neg : Bool) (m : Nat) (e : Int) : Int × Bool :=
  let u := x - 41
  if u ≤ e then
    let v : Int := (m * 2 ^ (e - u).toNat : Nat)
    (if neg then -v else v, false)
  else
    let d := 2 ^ (u - e).toNat
    let v : Int := (m / d : Nat)
    (if neg then -v else v, m % d ≠ 0)

/-- A chunk result (R259, R261), whether a term was truncated, and whether the chunk has no non-zero term. -/
structure Chunk where
  val   : FV
  trunc : Bool
  empty : Bool := false
deriving DecidableEq, Repr

/-- The chunk sum of R259 and the special cases of R261 over the chunk's terms. -/
def chunkSum (w : Int) (terms : List FV) : Chunk :=
  if terms.any fun t => t = .nan then { val := .nan, trunc := false }
  else if (terms.any fun t => t = .inf true) && terms.any fun t => t = .inf false then { val := .nan, trunc := false }
  else if terms.any fun t => t = .inf true then { val := .inf true, trunc := false }
  else if terms.any fun t => t = .inf false then { val := .inf false, trunc := false }
  else
    let nz := terms.filterMap fun t => match t with
      | .fin n m e => if m = 0 then none else some (n, m, e)
      | _ => none
    match nz with
    | [] => { val := .fin false 0 0, trunc := false, empty := true }
    | (_, _, e0) :: r =>
      let x := (r.foldl (fun y t => max y t.2.2) e0) + w
      let us := nz.map fun t => termUnits x t.1 t.2.1 t.2.2
      let s : Int := us.foldl (fun a u => a + u.1) (0 : Int)
      { val := .fin (s < 0) s.natAbs (x - 41), trunc := us.any (·.2) }

/-- An accumulator element after a chunk under FP32 (R262): a chunk without a non-zero term leaves it; a sum that cancels is added as +0 (DEDUCED). -/
def accFp32 (acc : W32) (c : Chunk) : W32 :=
  if dec32 acc = .nan then enc32 .nan else if c.empty then acc else enc32 (fvAdd (dec32 acc) c.val)

/-- An accumulator element after a chunk under INT32, and whether it saturated (R263). -/
def accInt32 (acc : W32) (c : Chunk) : W32 × Bool :=
  match c.val with
  | .fin neg m e =>
    let s : Int := if 0 ≤ e then (m * 2 ^ e.toNat : Nat) else (m / 2 ^ (-e).toNat : Nat)
    let v := sint 32 acc.toNat + (if neg then -s else s)
    if v < -2147483648 then (0x80000000, true)
    else if 2147483647 < v then (0x7FFFFFFF, true)
    else (BitVec.ofInt 32 v, false)
  | _ => (acc, false)

end Sys2Proof.Machine
end

