-- ==== Sys2Proof/Machine/Mma.lean ====
section
/-! DEFINITION. Machine/Mma.lean: matrix operations from issue to completion, the descriptor walker, paged operands, slot-level codes (04). -/

namespace Sys2Proof.Machine

def mBadDesc := 0x40
def mBadFormat := 0x41
def mBadLayout := 0x42
def mAccRange := 0x43
def mOperandRange := 0x44
def mOperandDenied := 0x45
def mStageOverlap := 0x46
def mPageInvalid := 0x47
def mPageDenied := 0x48
def mPmapBad := 0x49
def mPageSpan := 0x4A
def mSparseMeta := 0x4B
def mPoison := 0x4C
def mSkipped := 0x4D
def fTokenStale := 0x4E
def fMmaTokens := 0x4F

/-! ## Tokens (R187, R188) -/

/-- The value of a token: record, group slot, generation. -/
def tokenWord (g rec gen : Nat) : W32 := BitVec.ofNat 32 (rec + 4 * g + 64 * (gen % 65536))

def Group.token (y : Group) (r : Nat) : Option Token := (y.tokens.find? fun c => c.1 = r).map (·.2)

/-- The record a token value names, when it is an outstanding token of group slot `g`. -/
def Group.tokenOf (y : Group) (g : Nat) (w : W32) : Option (Nat × Token) :=
  let r := w.toNat % 4
  match y.token r with
  | some k => if w = tokenWord g r k.gen then some (r, k) else none
  | none => none

def Group.freeRecord (y : Group) : Option Nat := (List.range 4).find? fun r => (y.token r).isNone

/-- MMA.ISSUE (R185–R188, R192): the descriptor is copied; a misplaced one is refused at stage 2. -/
def execMmaIssue (t : TileId) (g : GroupId) (vt vd : Nat) (s : State) : Host.Outcome State Fault Refusal :=
  s.onPart fun p => p.issue t g [vt, vd] [vd] ((p.tile t).ops.length < 4) fun p =>
    let y := p.group t g
    match y.freeRecord with
    | none => p.fault t g { code := fMmaTokens, lanes := y.act }
    | some r => p.noTx t g fun p =>
      let o := (y.rg vd y.lowLane).toNat
      let gen := y.tokenGen
      let desc := (p.tile t).arrBytes o 128
      let p := p.modGroup t g fun y =>
        ({ y with tokens := mins y.tokens r { gen }, tokenGen := gen + 1 }).putLanes vt y.act fun _ => tokenWord g r gen
      (p.modTile t fun x => { x with ops := x.ops ++ [{ group := g, record := r, gen, base := o, desc }] }).next8 t g

/-- A wait on a token (R185, R188): stale tokens fault; the group is not ready until the operation has completed. -/
def Part.mmaWait (p : Part) (t g vt : Nat) (named : List Nat) (fin : Part → Nat → Bool → Part) : Part :=
  let y := p.group t g
  let tok := y.tokenOf g (y.rg vt y.lowLane)
  let ready := match tok with
    | some (_, k) => k.code.isSome
    | none => true
  p.issue t g (vt :: named) [vt] ready fun p => match tok with
    | none => p.fault t g { code := fTokenStale, lanes := y.act }
    | some (r, k) => fin (p.modGroup t g fun y => { y with tokens := mdel y.tokens r }) (k.code.getD 0) k.soft

/-- MMA.WAIT (R185, R227). -/
def execMmaWait (t : TileId) (g : GroupId) (vt : Nat) (s : State) : Host.Outcome State Fault Refusal :=
  s.onPart fun p => p.mmaWait t g vt [] fun p code soft =>
    if code = 0 || soft then p.next8 t g else p.fault t g { code, lanes := (p.group t g).act }

/-- MMA.WAIT.ST (R185). -/
def execMmaWaitSt (t : TileId) (g : GroupId) (vs vt : Nat) (s : State) : Host.Outcome State Fault Refusal :=
  s.onPart fun p => p.mmaWait t g vt [vs] fun p code _ =>
    (p.modGroup t g fun y => y.putLanes vs y.act fun _ => BitVec.ofNat 32 code).next8 t g

/-- The first error of a group's tokens in issue order that a wait takes as a fault (R185, R190). -/
def Group.firstError (y : Group) : Option Nat :=
  let bad := y.tokens.filterMap fun c => match c.2.code with
    | some k => if k ≠ 0 && !c.2.soft then some (c.2.gen, k) else none
    | none => none
  match bad with
  | [] => none
  | b :: r => some (r.foldl (fun m c => if c.1 < m.1 then c else m) b).2

/-- MMA.WAITALL (R185). -/
def execMmaWaitAll (t : TileId) (g : GroupId) (s : State) : Host.Outcome State Fault Refusal :=
  s.onPart fun p => p.issue t g [] [] (!(p.group t g).outstanding) fun p =>
    let y := p.group t g
    let p := p.modGroup t g fun y => { y with tokens := [] }
    match y.firstError with
    | some code => p.fault t g { code, lanes := y.act }
    | none => p.next8 t g

/-- EXIT (03, R145, R157, R190): threads leave; the last ones wait for the group's tokens, and an error of one is taken at the EXIT. -/
def execExit (t : TileId) (g : GroupId) (s : State) : Host.Outcome State Fault Refusal :=
  s.onPart fun p =>
    let y := p.group t g
    let last := decide ((y.live &&& ~~~y.act) = 0)
    p.issue t g [] [] (!(last && y.outstanding)) fun p => p.noTx t g fun p =>
      let y := p.group t g
      if last then
        match y.firstError with
        | some code => p.fault t g { code, lanes := y.act }
        | none => p.endGroup t g
      else p.setGroup t g (y.leave y.act)

/-! ## Stage 2: checks of the descriptor (R193–R211, R222, R234) -/

/-- Bytes of scratchpad an operation may name: the block's allocation, or the scratchpad in the step program (R198). -/
def Part.scratchRange (p : Part) (t g : Nat) : Nat × Nat :=
  match (p.tile t).work with
  | .kernel _ =>
    let b := (p.tile t).block (p.group t g).block
    (b.base, b.base + b.size)
  | _ => (0, p.scratch t)

/-- Scratchpad ranges of an operand: elements when LOCAL, scales, metadata, staging area. -/
def Operand.scratchUse (o : Operand) (outer k : Nat) (sparse : Bool) (stored : Nat) : List (Nat × Nat) :=
  (if o.src = 0 then [o.extent outer stored] else []) ++
  (if o.fmt = 5 then [(o.scalePtr, o.scalePtr + (outer - 1) * o.scaleStride + 2 * ((stored + 31) / 32))] else []) ++
  (if sparse then [(o.metaPtr, o.metaPtr + (outer - 1) * o.metaStride + (k / 4 + 1) / 2)] else []) ++
  (if o.src = 0 then [] else [(o.stage, o.stage + outer * o.stageRow stored)])

def Operand.staging (o : Operand) (outer stored : Nat) : List (Nat × Nat) :=
  if o.src = 0 then [] else [(o.stage, o.stage + outer * o.stageRow stored)]
def Operand.localUse (o : Operand) (outer stored : Nat) : List (Nat × Nat) := if o.src = 0 then [o.extent outer stored] else []

def rangesMeet (a b : Nat × Nat) : Bool := a.1 < b.2 && b.1 < a.2

/-- Granted windows cover a range (R210, R220); windows do not overlap, so at most 64 are walked. -/
def Part.grantedRange (p : Part) (fn : Nat) : Nat → Nat → Nat → Bool
  | 0, a, e => decide (e ≤ a)
  | n + 1, a, e =>
    if e ≤ a then true
    else match p.winOpen a with
      | some w => (p.winGrant w).testBit fn && p.grantedRange fn n (p.winBase w + p.winSize w) e
      | none => false

/-- A range of local addresses of which none is unassigned (R14, R50): its ends lie in one range of R49, between which there are gaps. -/
def Part.assigned (p : Part) (a b : Nat) : Bool :=
  (p.hbmIn a && p.hbmIn b) || (inCtl a && inCtl b) || (p.inPin a && p.inPin b) || (inArr a && inArr b) || (inCs a && inCs b)

/-- Layout faults of one operand (R194, R196). -/
def Operand.badLayout (o : Operand) (sparse : Bool) : Bool :=
  (o.kouter && (nibbles o.fmt || sparse)) || o.base % 16 ≠ 0 || o.stride % 16 ≠ 0 ||
  (o.fmt = 5 && (o.scalePtr % 2 ≠ 0 || o.scaleStride % 2 ≠ 0)) || (sparse && (o.metaPtr % 16 ≠ 0 || o.metaStride % 16 ≠ 0)) ||
  (o.src = 2 && o.pmap % 64 ≠ 0) || (o.src ≠ 0 && o.stage % 256 ≠ 0)

/-- The first code of R240 that the stage-2 checks of an operation give; 0 where it passes. `others` are the operations in flight. -/
def Part.descCode (p : Part) (t : Nat) (op : MmaOp) (others : List MmaOp) : Nat :=
  let d := decDesc op.desc
  let (lo, hi) := p.scratchRange t op.group
  let info := pairInfo d.a.fmt d.b.fmt
  let kMax := (info.map (·.kMax)).getD 256
  let fn := p.tileFn t
  let uses := d.a.scratchUse d.m d.k d.sparse d.ka ++ d.b.scratchUse d.n d.k false d.k
  let mem : List (Nat × Nat) := (if d.a.src = 1 then [d.a.extent d.m d.ka] else []) ++ (if d.b.src = 1 then [d.b.extent d.n d.k] else [])
  let span (o : Operand) (outer k : Nat) : Bool :=
    o.src = 2 && decide (64 < ((o.extent outer k).2 - 1) / 65536 - (o.extent outer k).1 / 65536 + 1)
  let stages := d.a.staging d.m d.ka ++ d.b.staging d.n d.k
  let taken := others.flatMap fun q =>
    let e := decDesc q.desc
    e.a.staging e.m e.ka ++ e.b.staging e.n e.k ++ e.a.localUse e.m e.ka ++ e.b.localUse e.n e.k
  let own := d.a.localUse d.m d.ka ++ d.b.localUse d.n d.k
  let selfBad := stages.any (fun x => own.any (rangesMeet x)) || (match stages with | [x, y] => rangesMeet x y | _ => false)
  if op.base % 128 ≠ 0 || op.base < lo || hi < op.base + 128 || d.resv || d.a.resv || d.b.resv || d.kUnits = 0 || 8 < d.kUnits ||
     d.a.src = 3 || d.b.src = 3 || kMax < d.k then mBadDesc
  else if info.isNone || (d.sparse && (info.bind (·.kcSparse)).isNone) || (d.int32 && !(info.map (·.int32)).getD false) then mBadFormat
  else if d.a.badLayout d.sparse || d.b.badLayout false || (d.sparse && d.a.fmt = 5 && d.k % 64 ≠ 0) then mBadLayout
  else if 128 < d.accRow + d.m || 128 < d.accCol + d.n then mAccRange
  else if uses.any (fun u => u.1 < lo || hi < u.2) || mem.any (fun u => !p.assigned u.1 (u.2 - 1)) then mOperandRange
  else if mem.any (fun u => !p.grantedRange fn 65 u.1 u.2) then mOperandDenied
  else if selfBad || stages.any (fun x => taken.any (rangesMeet x)) then mStageOverlap
  else if span d.a d.m d.ka || span d.b d.n d.k then mPageSpan
  else 0

/-- The operation at an index is changed. -/
def Part.modOp (p : Part) (t i : Nat) (f : MmaOp → MmaOp) : Part := p.modTile t fun x => { x with ops := x.ops.modify i f }

/-- The operation fails a check (R184): it waits only for its turn to complete. -/
def Part.failOp (p : Part) (t i code : Nat) (soft : Bool) : Part :=
  p.modOp t i fun o => { o with code, soft, stage := .done, mapReads := [], toStage := [] }

/-- DESCRIPTOR_COPY (R184, R240): the stage-2 checks of the oldest operation that has not had them. -/
def execDescriptorCopy (t : TileId) (s : State) : Host.Outcome State Fault Refusal :=
  s.onPart fun p =>
    let ops := (p.tile t).ops
    match ops.findIdx? fun o => o.stage = .issued with
    | none => p
    | some i => match ops[i]? with
      | none => p
      | some op =>
        let code := p.descCode t op ((ops.take i).filter fun o => o.stage ≠ .done)
        if code = 0 then p.modOp t i fun o => { o with stage := .copied } else p.failOp t i code false

/-! ## Stage 3: translation (R216–R230) -/

/-- Slot-level reporting of a code (R227–R229, R242). -/
def Part.slotFault (p : Part) (t slot code page : Nat) : Part :=
  let p := p.modTile t fun x => { x with slotRec := x.slotRec ++ [(slot, code)] }
  let p := p.inc TL_MMA_COUNTS_SLOT_FAULTS 1 t
  let p := if p.rd TL_MMA_SLOTFAULT_VALID t = 1 then p
    else (((p.wr TL_MMA_SLOTFAULT_CODE code t).wr TL_MMA_SLOTFAULT_SLOT slot t).wr TL_MMA_SLOTFAULT_PAGE page t).set1 TL_MMA_SLOTFAULT_VALID t
  p.slotStatus slot code page

/-- An operation fails a page check: slot-level in the step program (R227). -/
def Part.pageFail (p : Part) (t i slot code page : Nat) : Part :=
  if p.tileStep t then (p.slotFault t slot code page).failOp t i code true else p.failOp t i code false

/-- Pages an operand's elements touch, in page order. -/
def Operand.pages (o : Operand) (outer k : Nat) : List Nat :=
  if o.src ≠ 2 then []
  else sortAsc (distinct ((o.rows outer k).flatMap fun r =>
    (List.range ((r.1 + r.2 - 1) / 65536 - r.1 / 65536 + 1)).map (r.1 / 65536 + ·)))

/-- The function against which pages are checked (R221). -/
def Part.pageOwner (p : Part) (t slot : Nat) : Nat := if p.tileStep t then mget 0 p.step.vfs slot else p.tileFn t

/-- A location of a page map that the walker may read (R218). -/
def Part.mapOk (p : Part) (fn a n : Nat) : Bool := inCtl a && inCtl (a + n - 1) && p.granted fn a n false

/-- Outcome of translating one page: a map read is needed, a code, or the page's base. -/
inductive PageStep where
  | read (header : Bool) (a : Nat)
  | fail (code page : Nat)
  | page (base : Nat)
deriving DecidableEq, Repr

/-- The walker's checks for page `n` of an operand, in the order of R218 and R219. -/
def Part.pageStep (p : Part) (t : Nat) (o : Operand) (n : Nat) : PageStep :=
  let x := p.tile t
  let fn := p.pageOwner t o.slot
  if !p.mapOk fn o.pmap 64 then .fail mPmapBad 0
  else match x.headers.find? fun h => h.1 = o.pmap with
    | none => .read true o.pmap
    | some (_, w) =>
      if getB w 44 20 ≠ 0 || getB w 32 12 ≠ o.slot then .fail mPmapBad 0
      else if getB w 0 32 ≤ n then .fail mPageInvalid n
      else
        let a := o.pmap + 64 + 8 * n
        if !p.mapOk fn a 8 then .fail mPmapBad n
        else match x.ptc.find? fun l => l.map = o.pmap && l.first = n / 8 * 8 with
          | none => .read false (sectorOf a)
          | some l =>
            let e := l.entries.getD (n % 8) 0
            let page := getB e 16 32 * 65536
            if getB e 0 1 = 0 || getB e 1 15 ≠ 0 || getB e 48 16 ≠ 0 || !p.hbmIn (page + 65535) then .fail mPageInvalid n
            else if !p.grantedRange fn 65 page (page + 65536) then .fail mPageDenied n
            else .page page

/-- The most recently used element moves to the end; at most `n` are kept. -/
def touch {α : Type} (n : Nat) (l : List α) (same : α → Bool) (x : α) : List α :=
  let r := (l.filter fun y => !same y) ++ [x]
  r.drop (r.length - n)

/-- The operand an operation's page list is about. -/
def Desc.operand (d : Desc) (isB : Bool) : Operand := if isB then d.b else d.a

/-- Pages of both operands in order. -/
def Desc.allPages (d : Desc) : List (Bool × Nat) := ((d.a.pages d.m d.ka).map fun n => (false, n)) ++ ((d.b.pages d.n d.k).map fun n => (true, n))

/-- Sectors of a memory or paged operand to stage, in the order of its rows. -/
def Operand.sectors (o : Operand) (outer k : Nat) : List Nat :=
  if o.src = 0 then []
  else distinct ((o.rows outer k).flatMap fun r =>
    (List.range ((r.1 + r.2 - 1) / 64 - r.1 / 64 + 1)).map fun i => 64 * (r.1 / 64 + i))

/-- The sparsity metadata is valid (R232, R233). -/
def Part.metaOk (p : Part) (t : Nat) (d : Desc) : Bool :=
  !d.sparse || (List.range d.m).all fun i => (List.range (d.k / 4)).all fun g =>
    let b := mget 0 (p.tile t).arr (d.a.metaPtr + i * d.a.metaStride + g / 2)
    let n := if g % 2 = 0 then b.toNat % 16 else b.toNat / 16
    n % 4 < n / 4

/-- Staging has nothing left to fetch: the sparsity check of stage 4, then the operation is staged. -/
def Part.staged (p : Part) (t i : Nat) : Part :=
  match (p.tile t).ops[i]? with
  | none => p
  | some op =>
    if !op.toStage.isEmpty then p
    else if p.metaOk t (decDesc op.desc) then p.modOp t i fun o => { o with stage := .staged }
    else p.failOp t i mSparseMeta false

/-- Prefetch hints of an operand, one for each line (R213). -/
def Part.hints (p : Part) (t : Nat) (lines : List Nat) : Part :=
  lines.foldl (fun p l => p.send { id := 0, tile := t, group := 16, kind := .hint, sector := l, oid := 17 }) p

/-- Local address of a logical byte of an operand (PAGED: through the pages translated). -/
def MmaOp.addr (op : MmaOp) (d : Desc) (isB : Bool) (a : Nat) : Nat :=
  if (d.operand isB).src = 2 then
    ((op.pages.find? fun c => c.1 = isB && c.2.1 = a / 65536).map fun c => c.2.2 + a % 65536).getD 0
  else a

/-- One page after the other is translated until a map read is needed, a check fails or all are done. -/
def Part.walk (p : Part) (t i : Nat) (d : Desc) : List (Bool × Nat) → Part
  | [] =>
    let secs := ((d.a.sectors d.m d.ka).map fun s => (false, s)) ++ ((d.b.sectors d.n d.k).map fun s => (true, s))
    match (p.tile t).ops[i]? with
    | none => p
    | some op =>
      let line (c : Bool × Nat) : Nat := lineOf (op.addr d c.1 c.2)
      let hinted := distinct ((secs.filter fun c => (d.operand c.1).prefetch).map line)
      (((p.hints t hinted).modOp t i fun o => { o with stage := .translated, toStage := secs })).staged t i
  | (isB, n) :: rest =>
    let o := d.operand isB
    match p.pageStep t o n with
    | .read h a => (p.inc TL_MMA_WALK_PTC_MISSES (if h then 0 else 1) t).modOp t i fun q => { q with mapReads := [(h, a)], begun := true }
    | .fail code page => p.pageFail t i o.slot code page
    | .page base =>
      let p := p.inc TL_MMA_WALK_TRANSLATIONS 1 t
      let p := p.modTile t fun x =>
        { x with ptc := (match x.ptc.find? fun l => l.map = o.pmap && l.first = n / 8 * 8 with
            | some l => touch 4 x.ptc (fun q => q.map = l.map && q.first = l.first) l
            | none => x.ptc)
                 headers := (match x.headers.find? fun h => h.1 = o.pmap with
            | some h => touch 4 x.headers (fun c => c.1 = h.1) h
            | none => x.headers) }
      Part.walk (p.modOp t i fun q => { q with pages := q.pages ++ [(isB, n, base)] }) t i d rest

/-- MMA_TRANSLATION (R223, R229, R230): stage 3 of the oldest operation that has passed stage 2, in issue order. -/
def execMmaTranslation (t : TileId) (s : State) : Host.Outcome State Fault Refusal :=
  s.onPart fun p =>
    let ops := (p.tile t).ops
    match ops.findIdx? fun o => o.stage = .copied || o.stage = .issued with
    | none => p
    | some i => match ops[i]? with
      | none => p
      | some op =>
        let d := decDesc op.desc
        let slots := (if d.a.src = 2 then [d.a.slot] else []) ++ (if d.b.src = 2 then [d.b.slot] else [])
        let skip := p.tileStep t && slots.any fun k => !p.step.runs.contains k || (p.tile t).slotRec.any fun c => c.1 = k
        if op.stage ≠ .copied || !op.mapReads.isEmpty then p
        else if !op.begun && op.pages.isEmpty && skip then (p.inc TL_MMA_COUNTS_SKIPPED 1 t).failOp t i mSkipped true
        else p.walk t i d (d.allPages.filter fun c => !(op.pages.any fun q => q.1 = c.1 && q.2.1 = c.2))

/-- MAP_READ_RETURN (R218, R219, R224): a header or a map sector is held; a poisoned one fails the operation and is not kept. -/
def execMapReadReturn (t : TileId) (err : EccErr) (s : State) : Host.Outcome State Fault Refusal :=
  s.onPart fun p =>
    let ops := (p.tile t).ops
    match ops.findIdx? fun o => !o.mapReads.isEmpty with
    | none => p
    | some i => match ops[i]? with
      | none => p
      | some op => match op.mapReads with
        | [] => p
        | (h, a) :: _ =>
          let d := decDesc op.desc
          let next := (d.allPages.filter fun c => !(op.pages.any fun q => q.1 = c.1 && q.2.1 = c.2)).headD (false, 0)
          let o := d.operand next.1
          let (p, bs, m) := p.readSector a (p.meets a err (p.tileOwner t))
          let p := p.modOp t i fun q => { q with mapReads := [] }
          if m.isSome then p.pageFail t i o.slot (if h then mPmapBad else mPageInvalid) (if h then 0 else next.2)
          else if h then
            let w0 := BitVec.ofNat 64 (leAt bs 0 8)
            let w := if (bs.drop 8).any (· ≠ 0) then setB w0 63 1 1 else w0
            p.modTile t fun x => { x with headers := touch 4 x.headers (fun c => c.1 = a) (a, w) }
          else
            let es := (List.range 8).map fun j => BitVec.ofNat 64 (leAt bs (8 * j) 8)
            let first := (a - o.pmap - 64) / 8
            p.modTile t fun x => { x with ptc := touch 4 x.ptc (fun l => l.map = o.pmap && l.first = first) { map := o.pmap, first, entries := es } }

/-! ## Stage 4: staging (R203, R212, R214, R227) -/

/-- Where the bytes of a logical sector go in the staging area (R212). -/
def Operand.stageCells (o : Operand) (outer k sec : Nat) (bs : List Byte) : List (Nat × Byte) :=
  let e := elemBytes o.fmt 2 / 2
  ((o.rows outer k).mapIdx fun i r => (i, r)).flatMap fun (i, r) =>
    (List.range 64).filterMap fun j =>
      let a := sec + j
      if r.1 ≤ a && a < r.1 + r.2 then
        let m := a - r.1
        let dst := if o.kouter then o.stage + m / e * o.stageRow k + i * e + m % e else o.stage + i * o.stageRow k + m
        some (dst, bs.getD j 0)
      else none

/-- STAGING_DATA_RETURN: the next sector of the oldest operation being staged arrives. -/
def execStagingDataReturn (t : TileId) (err : EccErr) (s : State) : Host.Outcome State Fault Refusal :=
  s.onPart fun p =>
    let ops := (p.tile t).ops
    match ops.findIdx? fun o => o.stage = .translated with
    | none => p
    | some i => match ops[i]? with
      | none => p
      | some op => match op.toStage with
        | [] => p
        | (isB, sec) :: rest =>
          let d := decDesc op.desc
          let o := d.operand isB
          let outer := if isB then d.n else d.m
          let k := if isB then d.k else d.ka
          let a := op.addr d isB sec
          let (p, bs, m) := p.readSector a (p.meets a err (p.tileOwner t))
          let (p, bs, m) := p.tileData t a bs m
          let p := p.modTile t fun x => x.arrPut (o.stageCells outer k sec bs)
          let p := p.modOp t i fun q => { q with toStage := rest }
          let p := if m.isNone then p
            else if o.src = 2 then
              let p := p.modOp t i fun q => { q with poisonPaged := true }
              if p.tileStep t && !((p.tile t).slotRec.any fun c => c.1 = o.slot) then p.slotFault t o.slot mPoison 0 else p
            else p.modOp t i fun q => { q with poisonMem := true }
          p.staged t i

/-! ## Stages 5 and 6 (R189, R200, R201, R214, R256–R263) -/

/-- ARRAY_START (R201, R203): the oldest operation, once staged and with every earlier one done. -/
def execArrayStart (t : TileId) (s : State) : Host.Outcome State Fault Refusal :=
  s.onPart fun p => match (p.tile t).ops with
    | op :: _ => if op.stage = .staged then p.modOp t 0 fun o => { o with stage := .running } else p
    | [] => p

/-- Where an operand's stored element (i, j) lies in scratchpad, `j` along K (R195, R212). -/
def Operand.elemAt (o : Operand) (k i j : Nat) : Nat :=
  if o.src ≠ 0 then o.stage + i * o.stageRow k + elemBytes o.fmt j
  else if o.kouter then o.base + j * o.stride + elemBytes o.fmt i
  else o.base + i * o.stride + elemBytes o.fmt j

/-- The value of stored element (i, j) of an operand (R195, R197, R251–R253). -/
def Tile.elem (x : Tile) (o : Operand) (k i j : Nat) : FV :=
  let raw := leNat (x.arrBytes (o.elemAt k i j) (if o.fmt = 0 then 2 else 1))
  let code := if nibbles o.fmt then (if j % 2 = 0 then raw % 16 else raw / 16) else raw
  if o.fmt = 5 then
    let sp := o.scalePtr + i * o.scaleStride + 2 * (j / 32)
    let fine := (mget 0 x.arr (sp + 1)).toNat / 4 ^ (j % 32 / 8) % 4
    elemVal 5 code (mget 0 x.arr sp).toNat fine
  else elemVal o.fmt code 0 0

/-- Stored K indices of A in chunk `c` with their logical K (R231, R232, R258). -/
def Tile.chunkKs (x : Tile) (d : Desc) (i c : Nat) : List (Nat × Nat) :=
  if d.sparse then
    (List.range 16).flatMap fun h =>
      let g := 16 * c + h
      if 4 * g < d.k then
        let b := (mget 0 x.arr (d.a.metaPtr + i * d.a.metaStride + g / 2)).toNat
        let n := if g % 2 = 0 then b % 16 else b / 16
        [(2 * g, 4 * g + n % 4), (2 * g + 1, 4 * g + n / 4)]
      else []
  else ((List.range 64).filter fun h => 64 * c + h < d.k).map fun h => (64 * c + h, 64 * c + h)

/-- One element of C, chunk after chunk; counts of truncated, saturated and NaN chunks (R262, R263, R276). -/
def Tile.element (x : Tile) (d : Desc) (w : Int) (i j : Nat) (acc : W32) : W32 × Nat × Nat × Nat :=
  (List.range ((d.k + 63) / 64)).foldl (fun (a : W32 × Nat × Nat × Nat) c =>
    let terms := (x.chunkKs d i c).map fun (sa, k) => fvMul (x.elem d.a d.ka i sa) (x.elem d.b d.k j k)
    let s := chunkSum w terms
    let tr := a.2.1 + b2n s.trunc
    let nn := a.2.2.2 + b2n (s.val = .nan)
    if d.int32 then
      let (v, sat) := accInt32 a.1 s
      (v, tr, a.2.2.1 + b2n sat, nn)
    else (accFp32 a.1 s, tr, a.2.2.1, nn)) (acc, 0, 0, 0)

/-- Accumulator index of element (i, j) of C (R204). -/
def Desc.accIdx (d : Desc) (i j : Nat) : Nat := 128 * (d.accRow + i) + d.accCol + j

/-- Elements of C in the order of their 16 × 16 blocks (R200). -/
def Desc.cells (d : Desc) : List (Nat × Nat) :=
  (List.range ((d.m + 15) / 16)).flatMap fun br => (List.range ((d.n + 15) / 16)).flatMap fun bc =>
    (List.range 16).flatMap fun i => (List.range 16).filterMap fun j =>
      if 16 * br + i < d.m && 16 * bc + j < d.n then some (16 * br + i, 16 * bc + j) else none

/-- The array computes C (R200, R262, R263), or writes the pattern of R214 when an operand was poisoned. -/
def Part.compute (p : Part) (t : Nat) (op : MmaOp) : Part :=
  let d := decDesc op.desc
  let x := p.tile t
  if op.poisonMem || op.poisonPaged then
    p.modTile t fun x => { x with acc := d.cells.foldl (fun m c => mput 0 m (d.accIdx c.1 c.2) (if d.int32 then 0x80000000 else 0x7FC00000)) x.acc }
  else
    let w := ((pairInfo d.a.fmt d.b.fmt).map (·.w)).getD 0
    let (acc, tr, sat, nn) := d.cells.foldl (fun (q : SMap W32 × Nat × Nat × Nat) c =>
      let k := d.accIdx c.1 c.2
      let (v, a, b, e) := x.element d w c.1 c.2 (if d.accMode then mget 0 q.1 k else 0)
      (mput 0 q.1 k v, q.2.1 + a, q.2.2.1 + b, q.2.2.2 + e)) (x.acc, 0, 0, 0)
    let p := p.modTile t fun x => { x with acc }
    ((p.inc TL_ARITH_TRUNC_CHUNKS tr t).inc TL_ARITH_SAT_CHUNKS sat t).inc TL_ARITH_NAN_CHUNKS nn t

/-- MMA_COMPLETE (R189, R214, R227): the oldest operation completes and posts its code to its token. -/
def execMmaComplete (t : TileId) (s : State) : Host.Outcome State Fault Refusal :=
  s.onPart fun p => match (p.tile t).ops with
    | [] => p
    | op :: rest =>
      if op.stage ≠ .running && op.stage ≠ .done then p
      else
        let ran := op.stage = .running
        let bad := op.poisonMem || op.poisonPaged
        let p := if ran then (p.compute t op).inc TL_MMA_ARRAY_CYCLES (decDesc op.desc).cycles t else p
        let code := if ran && bad then mPoison else op.code
        let soft := op.soft || (ran && p.tileStep t && op.poisonPaged && !op.poisonMem)
        let p := p.inc TL_MMA_COUNTS_OPS 1 t
        let p := p.modTile t fun x => { x with ops := rest }
        p.modGroup t op.group fun y => match y.token op.record with
          | some k => if k.gen = op.gen then { y with tokens := mins y.tokens op.record { k with code := some code, soft } } else y
          | none => y

/-! ## Accumulator memory from the SIMT core (R206, R351–R353) -/

/-- An element lies in the C region of an operation that has not completed (R206). -/
def Tile.accBusy (x : Tile) (i : Nat) : Bool :=
  x.ops.any fun o =>
    let d := decDesc o.desc
    d.accRow ≤ i / 128 && i / 128 < d.accRow + d.m && d.accCol ≤ i % 128 && i % 128 < d.accCol + d.n

/-- No active lane names a busy element. -/
def Part.accFree (p : Part) (t g va : Nat) : Bool :=
  let y := p.group t g
  (lanesOf y.act).all fun l => !(p.tile t).accBusy (y.rg va l).toNat

/-- Accumulator sectors the lanes touch (R352). -/
def Group.accSectors (y : Group) (va : Nat) : Nat := (distinct ((lanesOf y.act).map fun l => (y.rg va l).toNat / 16)).length

/-- LD.ACC (R351). -/
def execLdAcc (t : TileId) (g : GroupId) (vd va : Nat) (s : State) : Host.Outcome State Fault Refusal :=
  s.onPart fun p => p.issue t g [vd, va] [va] (p.accFree t g va) fun p => match p.accFault t g va with
    | some f => p.fault t g f
    | none =>
      let x := p.tile t
      let y := p.group t g
      ((p.setGroup t g (y.putLanes vd y.act fun l => mget 0 x.acc (y.rg va l).toNat)).inc TL_SECTORS_CYCLES (y.accSectors va) t).next8 t g

/-- ST.ACC (R351). Where lanes name one element with different values the spec does not say which is stored (log 2). -/
def execStAcc (t : TileId) (g : GroupId) (va vs : Nat) (s : State) : Host.Outcome State Fault Refusal :=
  s.onPart fun p => p.issue t g [va, vs] [va, vs] (p.accFree t g va) fun p => match p.accFault t g va with
    | some f => p.fault t g f
    | none =>
      let y := p.group t g
      let clash (l : Nat) : Bool := (lanesOf y.act).any fun k => y.rg va k = y.rg va l && y.rg vs k ≠ y.rg vs l
      let put (m : SMap W32) (l : Nat) : SMap W32 := mput 0 m (y.rg va l).toNat (if clash l then Config.freeWord (p.freeCtr + (y.rg va l).toNat) else y.rg vs l)
      let p := p.modTile t fun x => { x with acc := (lanesOf y.act).foldl put x.acc }
      { (p.inc TL_SECTORS_CYCLES (y.accSectors va) t).next8 t g with freeCtr := p.freeCtr + 0x4000 }

end Sys2Proof.Machine
end

