-- ==== Sys2Proof/Machine/Dispatch.lean ====
section
/-! DEFINITION. Machine/Dispatch.lean: one arm per command. -/

namespace Sys2Proof.Machine

def exec (i : Instr) (s : State) : Host.Outcome State Fault Refusal :=
  match i with
  -- 02 The Step Tick
  | .tickBoundary => Sys2Proof.Machine.execTickBoundary s
  | .stepStart now => Sys2Proof.Machine.execStepStart now s
  | .stepComplete now => Sys2Proof.Machine.execStepComplete now s
  | .guardStart => Sys2Proof.Machine.execGuardStart s
  | .stepStatusReceived dev rep slotsFaulted slotsReplay => Sys2Proof.Machine.execStepStatusReceived dev rep slotsFaulted slotsReplay s
  | .verdictDecision => Sys2Proof.Machine.execVerdictDecision s
  | .verdict v overrun => Sys2Proof.Machine.execVerdict v overrun s
  | .announceSend => Sys2Proof.Machine.execAnnounceSend s
  | .announce tick boundary ctl => Sys2Proof.Machine.execAnnounce tick boundary ctl s
  | .syncSend => Sys2Proof.Machine.execSyncSend s
  | .sync master masterTime hopDelay now => Sys2Proof.Machine.execSync master masterTime hopDelay now s
  | .holdover now => Sys2Proof.Machine.execHoldover now s
  | .masterLost now => Sys2Proof.Machine.execMasterLost now s
  -- 03, 05 SIMT arithmetic
  | .iadd t g vd va vb => Sys2Proof.Machine.execIadd t g vd va vb s
  | .imul t g vd va vb => Sys2Proof.Machine.execImul t g vd va vb s
  | .fadd t g vd va vb => Sys2Proof.Machine.execFadd t g vd va vb s
  | .fmul t g vd va vb => Sys2Proof.Machine.execFmul t g vd va vb s
  | .fma t g vd va vb vc => Sys2Proof.Machine.execFma t g vd va vb vc s
  | .compare t g c vd va vb => Sys2Proof.Machine.execCompare t g c vd va vb s
  | .select t g vd vp va vb => Sys2Proof.Machine.execSelect t g vd vp va vb s
  | .logic t g op vd va vb => Sys2Proof.Machine.execLogic t g op vd va vb s
  | .cvt t g dst src m sat vd vs => Sys2Proof.Machine.execCvt t g dst src m sat vd vs s
  | .shfl t g vd va vb => Sys2Proof.Machine.execShfl t g vd va vb s
  | .rcp t g vd vs => Sys2Proof.Machine.execRcp t g vd vs s
  | .rsq t g vd vs => Sys2Proof.Machine.execRsq t g vd vs s
  | .sqrt t g vd vs => Sys2Proof.Machine.execSqrt t g vd vs s
  | .exp2 t g vd vs => Sys2Proof.Machine.execExp2 t g vd vs s
  | .log2 t g vd vs => Sys2Proof.Machine.execLog2 t g vd vs s
  | .sin t g vd vs => Sys2Proof.Machine.execSin t g vd vs s
  | .cos t g vd vs => Sys2Proof.Machine.execCos t g vd vs s
  | .bra t g c va vb target reconv => Sys2Proof.Machine.execBra t g c va vb target reconv s
  | .jmp t g target => Sys2Proof.Machine.execJmp t g target s
  | .jmpInd t g vs reconv => Sys2Proof.Machine.execJmpInd t g vs reconv s
  | .call t g vd target => Sys2Proof.Machine.execCall t g vd target s
  | .ret t g vs reconv => Sys2Proof.Machine.execRet t g vs reconv s
  | .s2r t g vd code => Sys2Proof.Machine.execS2r t g vd code s
  | .exit t g => Sys2Proof.Machine.execExit t g s
  | .trap t g imm => Sys2Proof.Machine.execTrap t g imm s
  -- 07, 09, 10 memory instructions
  | .ldS t g size sx vd va => Sys2Proof.Machine.execLdS t g size sx vd va s
  | .stS t g size va vs => Sys2Proof.Machine.execStS t g size va vs s
  | .ld t g size sx m vd va => Sys2Proof.Machine.execLd t g size sx m vd va s
  | .st t g size m va vs => Sys2Proof.Machine.execSt t g size m va vs s
  | .atom t g op ty m vd va vs => Sys2Proof.Machine.execAtom t g op ty m vd va vs s
  | .atomCas t g ty m vd va vs vc => Sys2Proof.Machine.execAtomCas t g ty m vd va vs vc s
  | .red t g op ty m va vs => Sys2Proof.Machine.execRed t g op ty m va vs s
  | .redSec t g op ty m va vs => Sys2Proof.Machine.execRedSec t g op ty m va vs s
  | .ldrsv t g wide m vd va => Sys2Proof.Machine.execLdrsv t g wide m vd va s
  | .stcnd t g wide m vd va vs => Sys2Proof.Machine.execStcnd t g wide m vd va vs s
  | .discard t g va => Sys2Proof.Machine.execDiscard t g va s
  | .prefetch t g va => Sys2Proof.Machine.execPrefetch t g va s
  | .ldAcc t g vd va => Sys2Proof.Machine.execLdAcc t g vd va s
  | .stAcc t g va vs => Sys2Proof.Machine.execStAcc t g va vs s
  | .bcvtSb4F32 t g m vd vs => Sys2Proof.Machine.execBcvtSb4F32 t g m vd vs s
  | .bcvtF32Sb4 t g vd vs => Sys2Proof.Machine.execBcvtF32Sb4 t g vd vs s
  -- 04 matrix unit
  | .mmaIssue t g vt vd => Sys2Proof.Machine.execMmaIssue t g vt vd s
  | .descriptorCopy t => Sys2Proof.Machine.execDescriptorCopy t s
  | .mmaWait t g vt => Sys2Proof.Machine.execMmaWait t g vt s
  | .mmaWaitSt t g vs vt => Sys2Proof.Machine.execMmaWaitSt t g vs vt s
  | .mmaWaitAll t g => Sys2Proof.Machine.execMmaWaitAll t g s
  -- 03 barriers
  | .gbar t g => Sys2Proof.Machine.execGbar t g s
  | .bbar t g rel => Sys2Proof.Machine.execBbar t g rel s
  | .barrierTimeout t b => Sys2Proof.Machine.execBarrierTimeout t b s
  -- 06, 07 streams and counters
  | .meshStream t g vs => Sys2Proof.Machine.execMeshStream t g vs s
  | .meshReady t g => Sys2Proof.Machine.execMeshReady t g s
  | .ctrRd t g vd dir stream => Sys2Proof.Machine.execCtrRd t g vd dir stream s
  | .ctrWait t g dir stream vs => Sys2Proof.Machine.execCtrWait t g dir stream vs s
  -- 09 transactions
  | .txBegin t g vd target => Sys2Proof.Machine.execTxBegin t g vd target s
  | .txCommit t g => Sys2Proof.Machine.execTxCommit t g s
  | .txAbort t g imm => Sys2Proof.Machine.execTxAbort t g imm s
  | .txAbortNotice t g => Sys2Proof.Machine.execTxAbortNotice t g s
  | .txTimeout t g => Sys2Proof.Machine.execTxTimeout t g s
  -- 10 ordering
  | .fenceAcq t g => Sys2Proof.Machine.execFenceAcq t g s
  | .fenceRel t g vd => Sys2Proof.Machine.execFenceRel t g vd s
  | .fenceAr t g vd => Sys2Proof.Machine.execFenceAr t g vd s
  | .acquireComplete t g => Sys2Proof.Machine.execAcquireComplete t g s
  | .releaseSend t g => Sys2Proof.Machine.execReleaseSend t g s
  | .fenceTimeout t g => Sys2Proof.Machine.execFenceTimeout t g s
  | .devfence t g => Sys2Proof.Machine.execDevfence t g s
  | .sidSet t g vs => Sys2Proof.Machine.execSidSet t g vs s
  | .consume t g vs vc => Sys2Proof.Machine.execConsume t g vs vc s
  | .controlSpaceAccess t g write wide vd va => Sys2Proof.Machine.execControlSpaceAccess t g write wide vd va s
  | .loadDataReturn id => Sys2Proof.Machine.execLoadDataReturn id s
  | .storeBufferDrain t => Sys2Proof.Machine.execStoreBufferDrain t s
  -- work on a tile
  | .blockStart t now => Sys2Proof.Machine.execBlockStart t now s
  | .kernelEnd t now => Sys2Proof.Machine.execKernelEnd t now s
  | .tileEcc t now => Sys2Proof.Machine.execTileEcc t now s
  | .tileSelfTestDone t pass routerPass now => Sys2Proof.Machine.execTileSelfTestDone t pass routerPass now s
  | .idleGate t => Sys2Proof.Machine.execIdleGate t s
  | .drainLimit t => Sys2Proof.Machine.execDrainLimit t s
  | .mmaTranslation t => Sys2Proof.Machine.execMmaTranslation t s
  | .mapReadReturn t err => Sys2Proof.Machine.execMapReadReturn t err s
  | .stagingDataReturn t err => Sys2Proof.Machine.execStagingDataReturn t err s
  | .arrayStart t => Sys2Proof.Machine.execArrayStart t s
  | .mmaComplete t => Sys2Proof.Machine.execMmaComplete t s
  | .weightDescriptorActive t ch => Sys2Proof.Machine.execWeightDescriptorActive t ch s
  | .weightLineWrite t ch line err errSector => Sys2Proof.Machine.execWeightLineWrite t ch line err errSector s
  -- 06 static mesh
  | .gateOpen => Sys2Proof.Machine.execGateOpen s
  | .gateLeave => Sys2Proof.Machine.execGateLeave s
  | .routerSlot r sched bridgeUe => Sys2Proof.Machine.execRouterSlot r sched bridgeUe s
  -- 08, 09 slices
  | .sliceRead id err => Sys2Proof.Machine.execSliceRead id err s
  | .sliceWrite id => Sys2Proof.Machine.execSliceWrite id s
  | .fillComplete line err errSector => Sys2Proof.Machine.execFillComplete line err errSector s
  | .fillWaitEnd id => Sys2Proof.Machine.execFillWaitEnd id s
  | .missEntryWaitEnd id => Sys2Proof.Machine.execMissEntryWaitEnd id s
  | .sliceAtomic id => Sys2Proof.Machine.execSliceAtomic id s
  | .pinWaitEnd id => Sys2Proof.Machine.execPinWaitEnd id s
  | .sliceReservation id => Sys2Proof.Machine.execSliceReservation id s
  | .sliceStcnd id => Sys2Proof.Machine.execSliceStcnd id s
  | .reservationGuardExpiry line => Sys2Proof.Machine.execReservationGuardExpiry line s
  | .leaseExpiry line => Sys2Proof.Machine.execLeaseExpiry line s
  | .sliceDiscard id => Sys2Proof.Machine.execSliceDiscard id s
  | .prefetchHint id => Sys2Proof.Machine.execPrefetchHint id s
  | .txClaim id => Sys2Proof.Machine.execTxClaim id s
  | .txCommitApply t g => Sys2Proof.Machine.execTxCommitApply t g s
  | .cleanDone token => Sys2Proof.Machine.execCleanDone token s
  | .tagLoss sl set way now => Sys2Proof.Machine.execTagLoss sl set way now s
  -- 10, 13 remote operations
  | .wr r w final err errSector => Sys2Proof.Machine.execWr r w final err errSector s
  | .finalPerform key err errSector => Sys2Proof.Machine.execFinalPerform key err errSector s
  | .rd r err errSector => Sys2Proof.Machine.execRd r err errSector s
  | .amo r k holder lanes err => Sys2Proof.Machine.execAmo r k holder lanes err s
  | .ack dev seq denied => Sys2Proof.Machine.execAck dev seq denied s
  | .rdata id data poison dead denied => Sys2Proof.Machine.execRdata id data poison dead denied s
  | .remoteLostTimeout id => Sys2Proof.Machine.execRemoteLostTimeout id s
  -- 13 links and domain
  | .flitReceive p f => Sys2Proof.Machine.execFlitReceive p f s
  | .ackTimeout p => Sys2Proof.Machine.execAckTimeout p s
  | .retrainDone p ok now => Sys2Proof.Machine.execRetrainDone p ok now s
  | .probe p faults => Sys2Proof.Machine.execProbe p faults s
  | .laneId p reversed ordered inverted farQuarantine => Sys2Proof.Machine.execLaneId p reversed ordered inverted farQuarantine s
  | .eqTrain p lowMargin => Sys2Proof.Machine.execEqTrain p lowMargin s
  | .handshake p domainId dev port mode => Sys2Proof.Machine.execHandshake p domainId dev port mode s
  | .linkUp p => Sys2Proof.Machine.execLinkUp p s
  | .downRetry p => Sys2Proof.Machine.execDownRetry p s
  | .eqAdapt p => Sys2Proof.Machine.execEqAdapt p s
  | .marginUpdate p margins => Sys2Proof.Machine.execMarginUpdate p margins s
  | .hello h => Sys2Proof.Machine.execHello h s
  | .memberSend => Sys2Proof.Machine.execMemberSend s
  | .member mask => Sys2Proof.Machine.execMember mask s
  | .peerDeadTimeout d => Sys2Proof.Machine.execPeerDeadTimeout d s
  | .routeLostSend d => Sys2Proof.Machine.execRouteLostSend d s
  | .routeLost reporter d => Sys2Proof.Machine.execRouteLost reporter d s
  | .domainLeave => Sys2Proof.Machine.execDomainLeave s
  | .symbiteFwd sender isReply id cls fn op body => Sys2Proof.Machine.execSymbiteFwd sender isReply id cls fn op body s
  | .ingestStatus p foreign => Sys2Proof.Machine.execIngestStatus p foreign s
  | .forwardTimeout id => Sys2Proof.Machine.execForwardTimeout id s
  -- 14 host coupling
  | .dbpSqDb fn q value => Sys2Proof.Machine.execDbpSqDb fn q value s
  | .dbpCqDb fn q value => Sys2Proof.Machine.execDbpCqDb fn q value s
  | .dbpQCtl fn q wide value => Sys2Proof.Machine.execDbpQCtl fn q wide value s
  | .dbpMbxSend fn => Sys2Proof.Machine.execDbpMbxSend fn s
  | .uciMbxSend mask => Sys2Proof.Machine.execUciMbxSend mask s
  | .slotReadData fn q slot => Sys2Proof.Machine.execSlotReadData fn q slot s
  | .slotReread fn q => Sys2Proof.Machine.execSlotReread fn q s
  | .hostReadTimeout fn q gen => Sys2Proof.Machine.execHostReadTimeout fn q gen s
  | .commandStart fn q => Sys2Proof.Machine.execCommandStart fn q s
  | .bar0Access offset width write value => Sys2Proof.Machine.execBar0Access offset width write value s
  | .bar2Access offset write len data => Sys2Proof.Machine.execBar2Access offset write len data s
  | .linkDown now => Sys2Proof.Machine.execLinkDown now s
  | .linkRetrain modules repaired0 repaired1 => Sys2Proof.Machine.execLinkRetrain modules repaired0 repaired1 s
  | .detachTimeout now => Sys2Proof.Machine.execDetachTimeout now s
  | .hotReset => Sys2Proof.Machine.execHotReset s
  | .vfFlr fn => Sys2Proof.Machine.execVfFlr fn s
  | .pfFlr => Sys2Proof.Machine.execPfFlr s
  -- 15 Symbite commands
  | .nop c => Sys2Proof.Machine.execNop c s
  | .identify c => Sys2Proof.Machine.execIdentify c s
  | .attach c => Sys2Proof.Machine.execAttach c s
  | .inventoryRead c cursor => Sys2Proof.Machine.execInventoryRead c cursor s
  | .logRead c log cursor => Sys2Proof.Machine.execLogRead c log cursor s
  | .queueCreate c p => Sys2Proof.Machine.execQueueCreate c p s
  | .queueDestroy c completion q fn => Sys2Proof.Machine.execQueueDestroy c completion q fn s
  | .vfCreate c p => Sys2Proof.Machine.execVfCreate c p s
  | .vfDestroy c vf deadWindows => Sys2Proof.Machine.execVfDestroy c vf deadWindows s
  | .vfSetShare c vf share => Sys2Proof.Machine.execVfSetShare c vf share s
  | .queryAccount c fn clear => Sys2Proof.Machine.execQueryAccount c fn clear s
  | .podAssign c pods fn a => Sys2Proof.Machine.execPodAssign c pods fn a s
  | .windowCreate c p => Sys2Proof.Machine.execWindowCreate c p s
  | .windowModify c w ways grant strict codec => Sys2Proof.Machine.execWindowModify c w ways grant strict codec s
  | .windowDestroy c w => Sys2Proof.Machine.execWindowDestroy c w s
  | .waysLock c l => Sys2Proof.Machine.execWaysLock c l s
  | .waysPower c tuber group on => Sys2Proof.Machine.execWaysPower c tuber group on s
  | .preload c src dst len => Sys2Proof.Machine.execPreload c src dst len s
  | .memRead c addr => Sys2Proof.Machine.execMemRead c addr s
  | .memWrite c addr data => Sys2Proof.Machine.execMemWrite c addr data s
  | .pmapUpdate c map first entries => Sys2Proof.Machine.execPmapUpdate c map first entries s
  | .ingestBind c p fn => Sys2Proof.Machine.execIngestBind c p fn s
  | .stackEvacuate c st => Sys2Proof.Machine.execStackEvacuate c st s
  | .stepLoad c addr len => Sys2Proof.Machine.execStepLoad c addr len s
  | .stepActivate c imageId => Sys2Proof.Machine.execStepActivate c imageId s
  | .stepHalt c => Sys2Proof.Machine.execStepHalt c s
  | .stepResume c => Sys2Proof.Machine.execStepResume c s
  | .seqWrite c p => Sys2Proof.Machine.execSeqWrite c p s
  | .seqRead c first count => Sys2Proof.Machine.execSeqRead c first count s
  | .hint c entries => Sys2Proof.Machine.execHint c entries s
  | .launch c p => Sys2Proof.Machine.execLaunch c p s
  | .kernelKill c tag q => Sys2Proof.Machine.execKernelKill c tag q s
  | .revoke c scope => Sys2Proof.Machine.execRevoke c scope s
  | .domainJoin c => Sys2Proof.Machine.execDomainJoin c s
  | .domainExclude c d => Sys2Proof.Machine.execDomainExclude c d s
  | .domainStatus c => Sys2Proof.Machine.execDomainStatus c s
  | .powerLimit c watts windowMs => Sys2Proof.Machine.execPowerLimit c watts windowMs s
  | .powerMode c fixed => Sys2Proof.Machine.execPowerMode c fixed s
  | .sensorRead c => Sys2Proof.Machine.execSensorRead c s
  | .repair c kind unit action join => Sys2Proof.Machine.execRepair c kind unit action join s
  | .getAttest c nonce => Sys2Proof.Machine.execGetAttest c nonce s
  | .getCerts c cursor => Sys2Proof.Machine.execGetCerts c cursor s
  | .fwLoad c offset chunk => Sys2Proof.Machine.execFwLoad c offset chunk s
  | .fwActivate c => Sys2Proof.Machine.execFwActivate c s
  | .imagePush c offset chunk => Sys2Proof.Machine.execImagePush c offset chunk s
  -- 18, 19 firmware
  | .fwResume now => Sys2Proof.Machine.execFwResume now s
  | .fwResumeTimeout now => Sys2Proof.Machine.execFwResumeTimeout now s
  | .slotWriteDone ok => Sys2Proof.Machine.execSlotWriteDone ok s
  | .kick ctx now => Sys2Proof.Machine.execKick ctx now s
  | .watchdogExpiry ctx now => Sys2Proof.Machine.execWatchdogExpiry ctx now s
  | .controlCoreLoadStore ctx write addr len data => Sys2Proof.Machine.execControlCoreLoadStore ctx write addr len data s
  -- 16 scheduler
  | .schedulerCheck now => Sys2Proof.Machine.execSchedulerCheck now s
  | .podDispatch p now => Sys2Proof.Machine.execPodDispatch p now s
  | .saveComplete p now => Sys2Proof.Machine.execSaveComplete p now s
  | .restoreComplete p now => Sys2Proof.Machine.execRestoreComplete p now s
  -- 17 power
  | .fastThrottleCheck currents now => Sys2Proof.Machine.execFastThrottleCheck currents now s
  | .vrAlert t now => Sys2Proof.Machine.execVrAlert t now s
  | .throttleStretch rail now => Sys2Proof.Machine.execThrottleStretch rail now s
  | .throttleEnd rail now => Sys2Proof.Machine.execThrottleEnd rail now s
  | .droopTrip r now => Sys2Proof.Machine.execDroopTrip r now s
  | .droopRecovery r now => Sys2Proof.Machine.execDroopRecovery r now s
  | .boostBarEnd r now => Sys2Proof.Machine.execBoostBarEnd r now s
  | .packageLoop estW riseW order now => Sys2Proof.Machine.execPackageLoop estW riseW order now s
  | .hintRaise p level begins => Sys2Proof.Machine.execHintRaise p level begins s
  | .railSettled rail mv => Sys2Proof.Machine.execRailSettled rail mv s
  | .calibration readings measW now => Sys2Proof.Machine.execCalibration readings measW now s
  | .thermalRead regionTemps tuberTemps now => Sys2Proof.Machine.execThermalRead regionTemps tuberTemps now s
  | .ageingCheck slacks now => Sys2Proof.Machine.execAgeingCheck slacks now s
  -- 12 HBM
  | .refresh st temp => Sys2Proof.Machine.execRefresh st temp s
  | .patrolScrub line err errSector lastOfPass => Sys2Proof.Machine.execPatrolScrub line err errSector lastOfPass s
  | .rowCopyDone pc row => Sys2Proof.Machine.execRowCopyDone pc row s
  | .stackLost st now => Sys2Proof.Machine.execStackLost st now s
  | .migrationStart => Sys2Proof.Machine.execMigrationStart s
  | .migrationBlock => Sys2Proof.Machine.execMigrationBlock s
  | .goldenData block data poisoned now => Sys2Proof.Machine.execGoldenData block data poisoned now s
  | .sourceLimit block now => Sys2Proof.Machine.execSourceLimit block now s
  | .repairRetry block now => Sys2Proof.Machine.execRepairRetry block now s
  | .windowDegraded block now => Sys2Proof.Machine.execWindowDegraded block now s
  | .hbmReset st ok => Sys2Proof.Machine.execHbmReset st ok s
  | .hbmCalibrate st ok => Sys2Proof.Machine.execHbmCalibrate st ok s
  | .hbmLane st ok => Sys2Proof.Machine.execHbmLane st ok s
  | .hbmRepair st ok => Sys2Proof.Machine.execHbmRepair st ok s
  | .hbmTest st ok => Sys2Proof.Machine.execHbmTest st ok s
  | .tgStart st ch => Sys2Proof.Machine.execTgStart st ch s
  | .tgDone st ch sectors miscompares first => Sys2Proof.Machine.execTgDone st ch sectors miscompares first s
  -- registers
  | .tickCtlWrite value => Sys2Proof.Machine.execTickCtlWrite value s
  | .faultClear t => Sys2Proof.Machine.execFaultClear t s
  | .admqEnable value => Sys2Proof.Machine.execAdmqEnable value s
  | .portEnable p on => Sys2Proof.Machine.execPortEnable p on s
  | .rcRead offset width => Sys2Proof.Machine.execRcRead offset width s
  | .registerWrite offset width value => Sys2Proof.Machine.execRegisterWrite offset width value s
  -- 19, 20 boot, pins, management port, JTAG
  | .porNAssert => Sys2Proof.Machine.execPorNAssert s
  | .porNRelease mgSel mgAddr => Sys2Proof.Machine.execPorNRelease mgSel mgAddr s
  | .header => Sys2Proof.Machine.execHeader s
  | .owner => Sys2Proof.Machine.execOwner s
  | .config => Sys2Proof.Machine.execConfig s
  | .firmware => Sys2Proof.Machine.execFirmware s
  | .identity failed => Sys2Proof.Machine.execIdentity failed s
  | .sealed => Sys2Proof.Machine.execSealed s
  | .railLoss rail => Sys2Proof.Machine.execRailLoss rail s
  | .blockWrite byte0 data pecOk => Sys2Proof.Machine.execBlockWrite byte0 data pecOk s
  | .blockRead => Sys2Proof.Machine.execBlockRead s
  | .readByte => Sys2Proof.Machine.execReadByte s
  | .setdasa addr => Sys2Proof.Machine.execSetdasa addr s
  | .entdaa addr => Sys2Proof.Machine.execEntdaa addr s
  | .bypass => Sys2Proof.Machine.execBypass s
  | .idcode => Sys2Proof.Machine.execIdcode s
  | .samplePreload value => Sys2Proof.Machine.execSamplePreload value s
  | .extest => Sys2Proof.Machine.execExtest s
  | .extestPulse => Sys2Proof.Machine.execExtestPulse s
  | .extestTrain => Sys2Proof.Machine.execExtestTrain s
  | .clamp => Sys2Proof.Machine.execClamp s
  | .highz => Sys2Proof.Machine.execHighz s
  | .controlComplexLoss t now => Sys2Proof.Machine.execControlComplexLoss t now s
  | .regionClockOrDroopFailure r now => Sys2Proof.Machine.execRegionClockOrDroopFailure r now s
  | .bondSelfTest noSpareTiles noSpareDies => Sys2Proof.Machine.execBondSelfTest noSpareTiles noSpareDies s
  | .bridgeTest spareLeft => Sys2Proof.Machine.execBridgeTest spareLeft s
  | .poisonedReply id join isBridge => Sys2Proof.Machine.execPoisonedReply id join isBridge s
  | .wayGroupAvailable t g => Sys2Proof.Machine.execWayGroupAvailable t g s
  | .creditStall p => Sys2Proof.Machine.execCreditStall p s
  | .llcLatUpdate sl meanHit meanMiss maxMiss => Sys2Proof.Machine.execLlcLatUpdate sl meanHit meanMiss maxMiss s
  | .statusReply fn sq gen status detail => Sys2Proof.Machine.execStatusReply fn sq gen status detail s
  | .railInRegulation => Sys2Proof.Machine.execRailInRegulation s
  | .alertResponseAddress => Sys2Proof.Machine.execAlertResponseAddress s
  | .trstN => Sys2Proof.Machine.execTrstN s

end Sys2Proof.Machine
end

