-- ==== Sys2Proof/Machine/Step.lean ====
section
/-! DEFINITION. Machine/Step.lean: one step takes the command at the front of the queue; on an empty queue time passes. -/

namespace Sys2Proof.Machine

/-- One period of the 156.25 MHz reference, 6.4 ns, in tenths of a nanosecond (R564, log 5). -/
def refPeriod : Nat := 64

/-- One step: the first waiting command takes effect; with none waiting, domain time advances by one reference period, unless the part is in reset (log 12). -/
def step (s : State) : Host.Outcome State Fault Refusal :=
  match s.pending with
  | c :: rest => exec c { s with pending := rest }
  | [] => .next (if s.pins.inReset then s else { s with part := { s.part with now := s.part.now + refPeriod } })

/-- `s` with the command a word spells put at the front of its queue; `s` itself where the word spells none. -/
def State.withFetchWord (s : State) (nbits w : Nat) : State :=
  match decodeTableWord nbits w with
  | some c => { s with pending := c :: s.pending }
  | none => s

end Sys2Proof.Machine
end

