-- ==== Sys2Proof/WellFormed.lean ====
section
/-! DEFINITION. WellFormed.lean: which commands a sender can form: register numbers a group can have, access sizes, packets whose opcode is the row's
and whose parameters fit, message lengths. A meaning answers for every command; one that is not well-formed here is either rejected by the part or
cannot be spelt. -/

namespace Sys2Proof

/-- Register numbers up to 255 (R131, R664). -/
def wfRegs (l : List Nat) : Bool := l.all fun r => decide (r < 256)

/-- Sizes of LD, ST, LD.S and ST.S, sign extension for 1 and 2 bytes alone. -/
def wfSize (n : Nat) (sx : Bool) : Bool := [1, 2, 4, 8, 16].contains n && (!sx || decide (n ≤ 2))

/-- Widths of a control-space access (R8). -/
def wfWidth (n : Nat) : Bool := n = 4 || n = 8

/-- A packet of opcode `op`: OUT_LEN at most 4,096, class M from the PF and class T from a VF (R649, R657). -/
def wfIssue (op : Nat) (c : Issue) : Bool :=
  decide (c.op = BitVec.ofNat 16 op) && decide (c.outLen ≤ 4096) &&
  (match c.cls with
    | .m => decide (c.fn.val = 0)
    | .t => decide (c.fn.val ≠ 0)
    | _ => true)

/-- WR and RD cover 64 bytes to 1 KiB in whole sectors, inside one 4 KiB block (R596). -/
def wfTraffic (r : RemoteReq) : Bool :=
  decide (64 ≤ r.len) && decide (r.len ≤ 1024) && decide (r.len % 64 = 0) && decide (r.addr % 64 = 0) && decide (r.addr % 4096 + r.len ≤ 4096)

/-- Lanes of one sector request (R429). -/
def wfLanes (offs : List Nat) : Bool := decide (offs.length ≤ 32) && offs.all fun o => decide (o < 64)

/-- The data of a WR fill its length (R596). -/
def wfWrite (r : RemoteReq) (w : RemoteWrite) : Bool := match w with
  | .store data mask => decide (data.length = r.len) && decide (mask.length = r.len)
  | .red _ _ lanes => decide (r.len = 64) && wfLanes (lanes.map fun l => l.1)

/-- The fields of a LAUNCH fit their bytes (R664). -/
def wfLaunch (p : LaunchParams) : Bool :=
  decide (p.code < 2 ^ 64) && decide (p.blocks < 2 ^ 32) && decide (p.nReg < 2 ^ 16) && decide (p.groups < 256) && decide (p.l1Size < 256) &&
  decide (p.localBytes < 2 ^ 32) && decide (p.argPtr < 2 ^ 64)

/-- Whether a command is well-formed. -/
def Instr.wf : Instr → Bool
  | .tickBoundary => true
  | .stepStart _ => true
  | .stepComplete _ => true
  | .guardStart => true
  | .stepStatusReceived _ _ _ _ => true
  | .verdictDecision => true
  | .verdict _ _ => true
  | .announceSend => true
  | .announce _ _ _ => true
  | .syncSend => true
  | .sync _ _ _ _ => true
  | .holdover _ => true
  | .masterLost _ => true
  | .iadd _ _ vd va vb => wfRegs [vd, va, vb]
  | .imul _ _ vd va vb => wfRegs [vd, va, vb]
  | .fadd _ _ vd va vb => wfRegs [vd, va, vb]
  | .fmul _ _ vd va vb => wfRegs [vd, va, vb]
  | .fma _ _ vd va vb vc => wfRegs [vd, va, vb, vc]
  | .compare _ _ _ vd va vb => wfRegs [vd, va, vb]
  | .select _ _ vd vp va vb => wfRegs [vd, vp, va, vb]
  | .logic _ _ _ vd va vb => wfRegs [vd, va, vb]
  | .cvt _ _ _ _ _ _ vd vs => wfRegs [vd, vs]
  | .shfl _ _ vd va vb => wfRegs [vd, va, vb]
  | .rcp _ _ vd vs => wfRegs [vd, vs]
  | .rsq _ _ vd vs => wfRegs [vd, vs]
  | .sqrt _ _ vd vs => wfRegs [vd, vs]
  | .exp2 _ _ vd vs => wfRegs [vd, vs]
  | .log2 _ _ vd vs => wfRegs [vd, vs]
  | .sin _ _ vd vs => wfRegs [vd, vs]
  | .cos _ _ vd vs => wfRegs [vd, vs]
  | .bra _ _ _ va vb _ _ => wfRegs [va, vb]
  | .jmp _ _ _ => true
  | .jmpInd _ _ vs _ => wfRegs [vs]
  | .call _ _ vd _ => wfRegs [vd]
  | .ret _ _ vs _ => wfRegs [vs]
  | .s2r _ _ vd _ => wfRegs [vd]
  | .exit _ _ => true
  | .trap _ _ _ => true
  | .ldS _ _ size sx vd va => wfRegs [vd, va] && wfSize size sx
  | .stS _ _ size va vs => wfRegs [va, vs] && wfSize size false
  | .ld _ _ size sx _ vd va => wfRegs [vd, va] && wfSize size sx
  | .st _ _ size _ va vs => wfRegs [va, vs] && wfSize size false
  | .atom _ _ _ _ _ vd va vs => wfRegs [vd, va, vs]
  | .atomCas _ _ _ _ vd va vs vc => wfRegs [vd, va, vs, vc]
  | .red _ _ _ _ _ va vs => wfRegs [va, vs]
  | .redSec _ _ _ _ _ va vs => wfRegs [va, vs]
  | .ldrsv _ _ _ _ vd va => wfRegs [vd, va]
  | .stcnd _ _ _ _ vd va vs => wfRegs [vd, va, vs]
  | .discard _ _ va => wfRegs [va]
  | .prefetch _ _ va => wfRegs [va]
  | .ldAcc _ _ vd va => wfRegs [vd, va]
  | .stAcc _ _ va vs => wfRegs [va, vs]
  | .bcvtSb4F32 _ _ _ vd vs => wfRegs [vd, vs]
  | .bcvtF32Sb4 _ _ vd vs => wfRegs [vd, vs]
  | .mmaIssue _ _ vt vd => wfRegs [vt, vd]
  | .descriptorCopy _ => true
  | .mmaWait _ _ vt => wfRegs [vt]
  | .mmaWaitSt _ _ vs vt => wfRegs [vs, vt]
  | .mmaWaitAll _ _ => true
  | .gbar _ _ => true
  | .bbar _ _ _ => true
  | .barrierTimeout _ _ => true
  | .meshStream _ _ vs => wfRegs [vs]
  | .meshReady _ _ => true
  | .ctrRd _ _ vd _ _ => wfRegs [vd]
  | .ctrWait _ _ _ _ vs => wfRegs [vs]
  | .txBegin _ _ vd _ => wfRegs [vd]
  | .txCommit _ _ => true
  | .txAbort _ _ _ => true
  | .txAbortNotice _ _ => true
  | .txTimeout _ _ => true
  | .fenceAcq _ _ => true
  | .fenceRel _ _ vd => wfRegs [vd]
  | .fenceAr _ _ vd => wfRegs [vd]
  | .acquireComplete _ _ => true
  | .releaseSend _ _ => true
  | .fenceTimeout _ _ => true
  | .devfence _ _ => true
  | .sidSet _ _ vs => wfRegs [vs]
  | .consume _ _ vs vc => wfRegs [vs, vc]
  | .controlSpaceAccess _ _ _ _ vd va => wfRegs [vd, va]
  | .loadDataReturn _ => true
  | .storeBufferDrain _ => true
  | .blockStart _ _ => true
  | .kernelEnd _ _ => true
  | .tileEcc _ _ => true
  | .tileSelfTestDone _ _ _ _ => true
  | .idleGate _ => true
  | .drainLimit _ => true
  | .mmaTranslation _ => true
  | .mapReadReturn _ _ => true
  | .stagingDataReturn _ _ => true
  | .arrayStart _ => true
  | .mmaComplete _ => true
  | .weightDescriptorActive _ _ => true
  | .weightLineWrite _ _ _ _ _ => true
  | .gateOpen => true
  | .gateLeave => true
  | .routerSlot _ _ _ => true
  | .sliceRead _ _ => true
  | .sliceWrite _ => true
  | .fillComplete _ _ _ => true
  | .fillWaitEnd _ => true
  | .missEntryWaitEnd _ => true
  | .sliceAtomic _ => true
  | .pinWaitEnd _ => true
  | .sliceReservation _ => true
  | .sliceStcnd _ => true
  | .reservationGuardExpiry _ => true
  | .leaseExpiry _ => true
  | .sliceDiscard _ => true
  | .prefetchHint _ => true
  | .txClaim _ => true
  | .txCommitApply _ _ => true
  | .cleanDone _ => true
  | .tagLoss _ _ _ _ => true
  | .wr r w _ _ _ => wfTraffic r && wfWrite r w
  | .finalPerform _ _ _ => true
  | .rd r _ _ => wfTraffic r
  | .amo r _ _ lanes _ => decide (r.len = 64) && wfLanes (lanes.map fun l => l.off)
  | .ack _ _ _ => true
  | .rdata _ _ _ _ _ => true
  | .remoteLostTimeout _ => true
  | .flitReceive _ _ => true
  | .ackTimeout _ => true
  | .retrainDone _ _ _ => true
  | .probe _ _ => true
  | .laneId _ _ _ _ _ => true
  | .eqTrain _ _ => true
  | .handshake _ _ _ _ _ => true
  | .linkUp _ => true
  | .downRetry _ => true
  | .eqAdapt _ => true
  | .marginUpdate _ _ => true
  | .hello _ => true
  | .memberSend => true
  | .member _ => true
  | .peerDeadTimeout _ => true
  | .routeLostSend _ => true
  | .routeLost _ _ => true
  | .domainLeave => true
  | .symbiteFwd _ _ _ _ _ _ body => decide (body.length ≤ 4160)
  | .ingestStatus _ _ => true
  | .forwardTimeout _ => true
  | .dbpSqDb _ _ _ => true
  | .dbpCqDb _ _ _ => true
  | .dbpQCtl _ _ _ _ => true
  | .dbpMbxSend _ => true
  | .uciMbxSend _ => true
  | .slotReadData _ _ slot => decide (128 ≤ slot.length) && decide (slot.length ≤ 4096)
  | .slotReread _ _ => true
  | .hostReadTimeout _ _ _ => true
  | .commandStart _ _ => true
  | .bar0Access _ width _ _ => wfWidth width
  | .bar2Access _ write len data => decide ((if write then data.length else len) ≤ 4096)
  | .linkDown _ => true
  | .linkRetrain _ _ _ => true
  | .detachTimeout _ => true
  | .hotReset => true
  | .vfFlr _ => true
  | .pfFlr => true
  | .nop c => wfIssue 0x0001 c
  | .identify c => wfIssue 0x0002 c
  | .attach c => wfIssue 0x0003 c
  | .inventoryRead c _ => wfIssue 0x0004 c
  | .logRead c _ _ => wfIssue 0x0005 c
  | .queueCreate c p => wfIssue 0x0101 c && decide (p.queue < 256)
  | .queueDestroy c _ _ _ => wfIssue 0x0102 c
  | .vfCreate c _ => wfIssue 0x0103 c
  | .vfDestroy c _ _ => wfIssue 0x0104 c
  | .vfSetShare c _ _ => wfIssue 0x0105 c
  | .queryAccount c _ _ => wfIssue 0x0106 c
  | .podAssign c _ _ _ => wfIssue 0x0107 c
  | .windowCreate c p => wfIssue 0x0201 c && decide (p.base < 2 ^ 48)
  | .windowModify c _ _ _ _ _ => wfIssue 0x0202 c
  | .windowDestroy c _ => wfIssue 0x0203 c
  | .waysLock c _ => wfIssue 0x0204 c
  | .waysPower c _ _ _ => wfIssue 0x0205 c
  | .preload c _ _ _ => wfIssue 0x0206 c
  | .memRead c _ => wfIssue 0x0207 c
  | .memWrite c _ data => wfIssue 0x0208 c && decide (data.length ≤ 4088)
  | .pmapUpdate c _ _ entries => wfIssue 0x0209 c && decide (entries.length ≤ 510)
  | .ingestBind c _ _ => wfIssue 0x020A c
  | .stackEvacuate c _ => wfIssue 0x020B c
  | .stepLoad c _ _ => wfIssue 0x0301 c
  | .stepActivate c _ => wfIssue 0x0302 c
  | .stepHalt c => wfIssue 0x0303 c
  | .stepResume c => wfIssue 0x0304 c
  | .seqWrite c _ => wfIssue 0x0305 c
  | .seqRead c _ count => wfIssue 0x0306 c && decide (count ≤ 128)
  | .hint c entries => wfIssue 0x0307 c && decide (entries.length ≤ 511)
  | .launch c p => wfIssue 0x0401 c && wfLaunch p
  | .kernelKill c _ _ => wfIssue 0x0402 c
  | .revoke c _ => wfIssue 0x0403 c
  | .domainJoin c => wfIssue 0x0501 c
  | .domainExclude c _ => wfIssue 0x0502 c
  | .domainStatus c => wfIssue 0x0503 c
  | .powerLimit c _ _ => wfIssue 0x0601 c
  | .powerMode c _ => wfIssue 0x0602 c
  | .sensorRead c => wfIssue 0x0603 c
  | .repair c _ _ _ _ => wfIssue 0x0701 c
  | .getAttest c nonce => wfIssue 0x0801 c && decide (nonce.length ≤ 64)
  | .getCerts c _ => wfIssue 0x0802 c
  | .fwLoad c _ chunk => wfIssue 0x0803 c && decide (chunk.length ≤ 4088)
  | .fwActivate c => wfIssue 0x0804 c
  | .imagePush c _ chunk => wfIssue 0x0805 c && decide (chunk.length ≤ 4088)
  | .fwResume _ => true
  | .fwResumeTimeout _ => true
  | .slotWriteDone _ => true
  | .kick _ _ => true
  | .watchdogExpiry _ _ => true
  | .controlCoreLoadStore _ _ addr _ _ => decide (addr < 2 ^ 48)
  | .schedulerCheck _ => true
  | .podDispatch _ _ => true
  | .saveComplete _ _ => true
  | .restoreComplete _ _ => true
  | .fastThrottleCheck _ _ => true
  | .vrAlert _ _ => true
  | .throttleStretch _ _ => true
  | .throttleEnd _ _ => true
  | .droopTrip _ _ => true
  | .droopRecovery _ _ => true
  | .boostBarEnd _ _ => true
  | .packageLoop _ _ _ _ => true
  | .hintRaise _ _ _ => true
  | .railSettled _ _ => true
  | .calibration _ _ _ => true
  | .thermalRead _ _ _ => true
  | .ageingCheck _ _ => true
  | .refresh _ _ => true
  | .patrolScrub _ _ _ _ => true
  | .rowCopyDone _ _ => true
  | .stackLost _ _ => true
  | .migrationStart => true
  | .migrationBlock => true
  | .goldenData _ data _ _ => decide (data.length = 4096)
  | .sourceLimit _ _ => true
  | .repairRetry _ _ => true
  | .windowDegraded _ _ => true
  | .hbmReset _ _ => true
  | .hbmCalibrate _ _ => true
  | .hbmLane _ _ => true
  | .hbmRepair _ _ => true
  | .hbmTest _ _ => true
  | .tgStart _ _ => true
  | .tgDone _ _ _ _ _ => true
  | .tickCtlWrite _ => true
  | .faultClear _ => true
  | .admqEnable _ => true
  | .portEnable _ _ => true
  | .rcRead _ width => wfWidth width
  | .registerWrite _ width _ => wfWidth width
  | .porNAssert => true
  | .porNRelease _ _ => true
  | .header => true
  | .owner => true
  | .config => true
  | .firmware => true
  | .identity _ => true
  | .sealed => true
  | .railLoss _ => true
  | .blockWrite _ data _ => decide (data.length ≤ 240)
  | .blockRead => true
  | .readByte => true
  | .setdasa _ => true
  | .entdaa _ => true
  | .bypass => true
  | .idcode => true
  | .samplePreload _ => true
  | .extest => true
  | .extestPulse => true
  | .extestTrain => true
  | .clamp => true
  | .highz => true
  | .controlComplexLoss _ _ => true
  | .regionClockOrDroopFailure _ _ => true
  | .bondSelfTest _ _ => true
  | .bridgeTest _ => true
  | .poisonedReply _ _ _ => true
  | .wayGroupAvailable _ _ => true
  | .creditStall _ => true
  | .llcLatUpdate _ _ _ _ => true
  | .statusReply _ _ _ _ _ => true
  | .railInRegulation => true
  | .alertResponseAddress => true
  | .trstN => true

end Sys2Proof
end

