-- ==== Sys2Proof/Safety.lean ====
section
/-! DEFINITION. Safety.lean: what a claim about runs is stated in: a part that serves commands, a state that can be reached, the memory's form. -/

namespace Sys2Proof

open Sys2Proof.Machine

/-- The part is out of package reset and has met no fatal error: commands act (R748, R819). -/
def Machine.State.live (s : State) : Prop := s.pins.inReset = false ∧ s.part.fatal = false

/-- A part whose boot is over: live, Running stage, no firmware switch under way, attached to its host. -/
def Machine.State.serving (s : State) : Prop := s.live ∧ s.part.stage = 7 ∧ s.part.attached = true

/-- A step goes on: it answers a next state. -/
def Machine.State.goesOn (s : State) : Prop := ∃ t, step s = .next t

/-- Contents of HBM and of the pinned buffer are in canonical form. -/
def Machine.State.memoryWf (s : State) : Prop := Memory.wf s.part.mem = true

/-- An instruction that names registers `named` and reads `srcs` issues without a fault: its group is ready, its address may be fetched, its
registers are within N_REG and carry no mark. -/
structure Machine.Part.Ready (p : Part) (t g : Nat) (named srcs : List Nat) : Prop where
  can   : p.canIssue t g = true
  src   : (p.group t g).srcReady srcs = true
  fetch : p.fetchFault t g = none
  regs  : (p.group t g).regFault named srcs = none

/-- Commands that act after a fatal error as before it (R748): queries, host and management access, link and function resets, the boundary at which repair records are
written, slot writes, the boot stages, and the rows of package reset. -/
def Instr.actsWhenFatal : Instr → Bool
  | .nop _ => true
  | .identify _ => true
  | .logRead _ _ _ => true
  | .getAttest _ _ => true
  | .sensorRead _ => true
  | .bar0Access _ _ _ _ => true
  | .rcRead _ _ => true
  | .linkDown _ => true
  | .linkRetrain _ _ _ => true
  | .detachTimeout _ => true
  | .hotReset => true
  | .vfFlr _ => true
  | .pfFlr => true
  | .blockWrite _ _ _ => true
  | .blockRead => true
  | .readByte => true
  | .setdasa _ => true
  | .entdaa _ => true
  | .alertResponseAddress => true
  | .tickBoundary => true
  | .slotWriteDone _ => true
  | .imagePush _ _ _ => true
  | .header => true
  | .owner => true
  | .config => true
  | .firmware => true
  | .identity _ => true
  | .sealed => true
  | .railLoss _ => true
  | .porNAssert => true
  | .porNRelease _ _ => true
  | .railInRegulation => true
  | .bypass => true
  | .idcode => true
  | .samplePreload _ => true
  | .extest => true
  | .extestPulse => true
  | .extestTrain => true
  | .clamp => true
  | .highz => true
  | .trstN => true
  | _ => false

/-- Commands that act while package reset is in force (R819, R820, R816–R818): POR_N, the rails in regulation, JTAG. RAIL_LOSS acts on the rails' state alone. -/
def Instr.actsInReset : Instr → Bool
  | .porNAssert => true
  | .porNRelease _ _ => true
  | .railInRegulation => true
  | .bypass => true
  | .idcode => true
  | .samplePreload _ => true
  | .extest => true
  | .extestPulse => true
  | .extestTrain => true
  | .clamp => true
  | .highz => true
  | .trstN => true
  | .railLoss _ => true
  | _ => false

/-- Commands that write serial memory (R750, R780–R787). -/
def Instr.writesSerial : Instr → Bool
  | .tickBoundary => true
  | .slotWriteDone _ => true
  | .porNAssert => true
  | .imagePush _ _ _ => true
  | _ => false

/-- Command `c` answers a next state that differs from `s` in the part alone, and the part of that state meets `Q`. -/
def Machine.State.gives (s : State) (c : Instr) (Q : Part → Prop) : Prop := ∃ p, exec c s = .next { s with part := p } ∧ Q p

/-- The frame of an instruction that acts on its own group: other tiles, other groups, the rest of its tile, memory as every read of a byte shows it,
every register of control space but the tile's instruction and rotation counters, and everything else of the part but the free values' counter. -/
structure Machine.Part.OnlyGroup (p q : Part) (t g : Nat) : Prop where
  tiles  : ∀ t', t' ≠ t → q.tile t' = p.tile t'
  groups : ∀ g', g' ≠ g → q.group t g' = p.group t g'
  tile   : { q.tile t with groups := [] } = { p.tile t with groups := [] }
  ctl    : ∀ (r : Reg) (i j : Nat), r.key i j ≠ reg_TL_ISSUE.key t 0 → r.key i j ≠ reg_TL_COUNTS.key t 0 → q.reg r i j = p.reg r i j
  mem    : ∀ a, q.byteAt a = p.byteAt a
  rest   : { q with tiles := [], ctl := [], freeCtr := 0 } = { p with tiles := [], ctl := [], freeCtr := 0 }

/-- What the group keeps through an instruction that writes at most register `vd`. -/
structure Machine.Group.KeepsBut (y z : Group) (vd : Nat) : Prop where
  regs   : ∀ r l, r ≠ vd → l < 32 → z.rg r l = y.rg r l
  marks  : ∀ r l, r ≠ vd → l < 32 → z.mark r l = y.mark r l
  live   : z.live = y.live
  wait   : z.wait = y.wait
  tx     : z.tx = y.tx
  sid    : z.sid = y.sid
  tokens : z.tokens = y.tokens
  block  : z.block = y.block
  nReg   : z.nReg = y.nReg

/-- Register `vd` of every active lane of the group took its value of `f`, a lane that is not active kept its own, and nothing else changed but the
group's paths (its program counter) and the tile's counters. -/
structure Machine.Part.Wrote (p q : Part) (t g vd : Nat) (f : Nat → W32) : Prop where
  active   : ∀ l, l < 32 → (p.group t g).act.getLsbD l = true → (q.group t g).rg vd l = f l
  inactive : ∀ l, l < 32 → (p.group t g).act.getLsbD l = false → (q.group t g).rg vd l = (p.group t g).rg vd l
  group    : (p.group t g).KeepsBut (q.group t g) vd
  frame    : p.OnlyGroup q t g

/-- Group `g` of tile `t` took a precise fault (R161, R165, R167, R175, R179): its registers, threads and memory are as they were, an open transaction is
released, the tile's work has faulted; the first fault is captured with its code, group, program counter and address, a later one sets MORE. -/
structure Machine.Part.TookFault (p q : Part) (t g code addr : Nat) : Prop where
  faulted : (q.tile t).faulted = true
  event   : q.rd TL_EVENTS_FAULT t = 1
  first   : p.rd TL_EVENTS_FAULT t = 0 → q.rd TL_FAULT_CODE t = code ∧ q.rd TL_FAULT_GROUP t = g ∧ q.rd TL_FAULT_PC_PC t = (p.group t g).pc.toNat ∧
    q.rd TL_FAULT_ADDR_ADDR t = addr % 2 ^ 64 ∧ q.rd TL_FAULT_PC_MORE t = 0
  more    : p.rd TL_EVENTS_FAULT t = 1 → q.rd TL_FAULT_PC_MORE t = 1 ∧ q.rd TL_FAULT_CODE t = p.rd TL_FAULT_CODE t
  group   : q.group t g = { p.group t g with tx := none }
  others  : ∀ g', g' ≠ g → q.group t g' = p.group t g'
  tiles   : ∀ t', t' ≠ t → q.tile t' = p.tile t'
  mem     : ∀ a, q.byteAt a = p.byteAt a

/-- The frame of a memory instruction of a group when it issues: other tiles, other groups, what memory holds as every read of a byte shows it, control space
outside the tiles' and ports' blocks, and every unit but the issuing tile, the requests in flight and the ports. -/
structure Machine.Part.OnTile (p q : Part) (t g : Nat) : Prop where
  tiles  : ∀ t', t' ≠ t → q.tile t' = p.tile t'
  groups : ∀ g', g' ≠ g → q.group t g' = p.group t g'
  mem    : ∀ a, q.byteAt a = p.byteAt a
  ctl    : ∀ (r : Reg) (i j : Nat), ¬ (0x1000000 ≤ r.key i j ∧ r.key i j < 0x2000000) → ¬ (0x100000 ≤ r.key i j ∧ r.key i j < 0x220000) →
    q.reg r i j = p.reg r i j
  rest   : { q with tiles := [], ctl := [], freeCtr := 0, net := [], nextId := 0, out := [], domain := {}, ports := [] } =
           { p with tiles := [], ctl := [], freeCtr := 0, net := [], nextId := 0, out := [], domain := {}, ports := [] }

/-- An access whose lanes all lie in memory of this or another device or in scratchpad, none in control space. -/
def Machine.noControl (l : List (Nat × Place)) : Prop := controlLanes l = []

/-- The little-endian word `i` of `n` loaded bytes as register `vd + i` takes it (R838): sizes below 4 extend, larger ones fill registers in turn. -/
def Machine.loadWord (size : Nat) (sx : Bool) (bs : List Byte) (i : Nat) : W32 :=
  if size < 4 then extend sx (8 * size) (leNat bs) else BitVec.ofNat 32 (leAt bs (4 * i) 4)

/-- Group `g` of tile `t` is `z` and nothing outside it changed but the tile's counters. -/
structure Machine.Part.Moved (p q : Part) (t g : Nat) (z : Group) : Prop where
  group : q.group t g = z
  frame : p.OnlyGroup q t g

/-- The frame of an event of one tile that reaches no other unit: other tiles, control space outside the tiles' block, every other unit, memory and
what the part has sent are as they were. -/
structure Machine.Part.OnlyTile (p q : Part) (t : Nat) : Prop where
  tiles  : ∀ t', t' ≠ t → q.tile t' = p.tile t'
  ctl    : ∀ (r : Reg) (i j : Nat), ¬ (0x1000000 ≤ r.key i j ∧ r.key i j < 0x2000000) → q.reg r i j = p.reg r i j
  rest   : { q with tiles := [], ctl := [] } = { p with tiles := [], ctl := [] }

/-- The open transaction of the group aborted with the abort word `w` (R455): no transaction is open, the group waits for nothing, the live threads of
TXBEGIN are one path at the abort target with `w` in the abort register; every other register, tile and group and every byte of memory is as it was. -/
structure Machine.Part.TxAborted (p q : Part) (t g : Nat) (x : Tx) (w : W32) : Prop where
  tx     : (q.group t g).tx = none
  wait   : (q.group t g).wait = .none
  pc     : (q.group t g).pc = x.target
  act    : (q.group t g).act = x.mask &&& (p.group t g).live
  word   : ∀ l, l < 32 → (x.mask &&& (p.group t g).live).getLsbD l = true → (q.group t g).rg x.vd l = w
  regs   : ∀ r l, l < 32 → r ≠ x.vd ∨ (x.mask &&& (p.group t g).live).getLsbD l = false → (q.group t g).rg r l = (p.group t g).rg r l
  groups : ∀ g', g' ≠ g → q.group t g' = p.group t g'
  tiles  : ∀ t', t' ≠ t → q.tile t' = p.tile t'
  mem    : ∀ a, q.byteAt a = p.byteAt a

/-- Dirty bytes of the slices are listed once each, in order. -/
def Machine.Part.dirtyWf (p : Part) : Prop := p.dirty.Pairwise fun a b => a.1 < b.1

/-- A line whose data are kept under its own address and that is not dead: in HBM, or in the pinned buffer with none of its bytes in a dirty sector. -/
structure Machine.Part.Plain (p : Part) (l : Nat) : Prop where
  line : lineOf l = l
  out  : inCtl l = false
  live : p.isDead l = false
  pin  : p.inPin l = true → ∀ c ∈ p.dirty, lineOf c.1 ≠ l

/-- Slice `s` serves sector `a` of line `l` at once: the line is pinned, or a Line in a way of its set with the sector valid and no miss entry. -/
structure Machine.Part.Resident (p : Part) (s l a : Nat) : Prop where
  kept  : p.pinLost a = false
  there : p.inPin l = true ∨ ∃ w, (p.slice s).find l = some w ∧ ((p.slice s).way (setOf l) w).kind = .line ∧
    ((p.slice s).way (setOf l) w).isValid a = true ∧ ∀ e ∈ (p.slice s).entries, e.line ≠ l

/-- A request in flight to a slice of this part, not yet taken, with every earlier one of its order performed (R477). -/
structure Machine.Part.Arrives (p : Part) (id : Nat) (r : Req) : Prop where
  req   : p.req id = some r
  sent  : r.state = .sent
  here  : r.dev = none
  turn  : p.inOrder r = true

/-- Exactly the bytes `bs` were stored: each address that `bs` gives one byte reads as it, every other address as before. -/
structure Machine.Part.Stored (p q : Part) (bs : List (Nat × Byte)) : Prop where
  given : ∀ a b, (a, b) ∈ bs → (∀ c, (a, c) ∈ bs → c = b) → q.byteAt a = b
  kept  : ∀ a, (∀ c ∈ bs, c.1 ≠ a) → q.byteAt a = p.byteAt a

/-- Request `id` has been performed and carries this answer. -/
def Machine.Part.Answered (q : Part) (id : Nat) (data : List Byte) (vals : List (Nat × W64)) (mark : Option RegMark) : Prop :=
  ∃ r, q.req id = some r ∧ r.state = .performed ∧ r.data = data ∧ r.vals = vals ∧ r.mark = mark

/-- Request `id` is waiting at its slice. -/
def Machine.Part.Waiting (q : Part) (id : Nat) : Prop := ∃ r, q.req id = some r ∧ r.state = .waiting

/-- Request `r` is done: it is no longer in flight, and the store-buffer entry it drained is free. -/
def Machine.Part.Done (q : Part) (id : Nat) (r : Req) : Prop :=
  q.req id = none ∧ ∀ e, r.sb = some e → ∀ c ∈ (q.tile r.tile).sb, c.id ≠ e

/-- Instructions that read `srcs` and write one register `vd` of the active lanes: tile, group, vd, sources. -/
def Instr.oneReg : Instr → Option (TileId × GroupId × Nat × List Nat)
  | .iadd t g vd va vb => some (t, g, vd, [va, vb])
  | .imul t g vd va vb => some (t, g, vd, [va, vb])
  | .fadd t g vd va vb => some (t, g, vd, [va, vb])
  | .fmul t g vd va vb => some (t, g, vd, [va, vb])
  | .fma t g vd va vb vc => some (t, g, vd, [va, vb, vc])
  | .compare t g _ vd va vb => some (t, g, vd, [va, vb])
  | .select t g vd vp va vb => some (t, g, vd, [vp, va, vb])
  | .logic t g op vd va vb => some (t, g, vd, if op = .not then [va] else [va, vb])
  | .cvt t g dst src _ sm vd vs => if cvtDefined dst src sm then some (t, g, vd, [vs]) else none
  | .shfl t g vd va vb => some (t, g, vd, [va, vb])
  | .rcp t g vd vs => some (t, g, vd, [vs])
  | .rsq t g vd vs => some (t, g, vd, [vs])
  | .sqrt t g vd vs => some (t, g, vd, [vs])
  | .exp2 t g vd vs => some (t, g, vd, [vs])
  | .log2 t g vd vs => some (t, g, vd, [vs])
  | .sin t g vd vs => some (t, g, vd, [vs])
  | .cos t g vd vs => some (t, g, vd, [vs])
  | .bcvtSb4F32 t g _ vd vs => some (t, g, vd, [vs])
  | .bcvtF32Sb4 t g vd vs => some (t, g, vd, [vs])
  | .s2r t g vd code => if code ≤ 11 then some (t, g, vd, []) else none
  | _ => none

/-- Every kernel and every saved pod belongs to one of the 64 functions. -/
structure Machine.Part.FnsOk (p : Part) : Prop where
  kernels : ∀ k x, p.kernel k = some x → x.fn < 64
  saved   : ∀ v ∈ p.sched.saved, v.fn < 64 ∧ v.pod < 192

/-- Memory in which no sector is poisoned, no line dead, no stack lost and no slice remapped, and whose dirty bytes are all of HBM: what a copy reads is
what is stored, what it writes stays. -/
structure Machine.Part.Sound (p : Part) : Prop where
  poison : p.poison = []
  dead   : p.dead = []
  marks  : p.hbm.marks = []
  lost   : p.hbm.lost = none
  map    : p.repair.sliceMap = []
  dirty  : p.dirtyWf
  pins   : ∀ c ∈ p.dirty, p.inPin c.1 = false

/-- `n` bytes from local address `a`, as an access of this part sees them. -/
def Machine.Part.shown (p : Part) (a n : Nat) : List Byte :=
  (List.range n).map fun i => p.byteAt (p.phys (sectorOf (a + i)) + (a + i) % 64)

/-- Command `c` waits for a clean of kind `k`, the newest of all. -/
def Machine.Part.Cleaning (p q : Part) (k : CleanKind) (c : Issue) : Prop :=
  q.cleans = p.cleans ++ [{ token := p.nextId, kind := k, issue := some c }] ∧ q.host = p.host

/-- Clocks and rails as every loop leaves them (R706, R708, R712): no region above what its limits leave it, none below 1.25 GHz; VCD targets in range. -/
structure Machine.Part.Settled (p : Part) : Prop where
  clocks : ∀ r, r < 48 → 1 ≤ p.regionClock r ∧ p.regionClock r ≤ p.wanted r
  rails  : ∀ d, d < 12 → (p.repair.retiredDies.getLsbD d = true → p.rd PWR_RAIL1_TARGET_MV 0 d = 0) ∧
    (p.repair.retiredDies.getLsbD d = false → 650 ≤ p.rd PWR_RAIL1_TARGET_MV 0 d ∧ p.rd PWR_RAIL1_TARGET_MV 0 d ≤ 900)

/-! ## Symbite commands -/

/-- The Symbite commands: how one was issued, and the place of its opcode in R661's order. -/
def Instr.symbite : Instr → Option (Issue × Nat)
  | .nop c => some (c, 0)
  | .identify c => some (c, 1)
  | .attach c => some (c, 2)
  | .inventoryRead c _ => some (c, 3)
  | .logRead c _ _ => some (c, 4)
  | .queueCreate c _ => some (c, 5)
  | .queueDestroy c _ _ _ => some (c, 6)
  | .vfCreate c _ => some (c, 7)
  | .vfDestroy c _ _ => some (c, 8)
  | .vfSetShare c _ _ => some (c, 9)
  | .queryAccount c _ _ => some (c, 10)
  | .podAssign c _ _ _ => some (c, 11)
  | .windowCreate c _ => some (c, 12)
  | .windowModify c _ _ _ _ _ => some (c, 13)
  | .windowDestroy c _ => some (c, 14)
  | .waysLock c _ => some (c, 15)
  | .waysPower c _ _ _ => some (c, 16)
  | .preload c _ _ _ => some (c, 17)
  | .memRead c _ => some (c, 18)
  | .memWrite c _ _ => some (c, 19)
  | .pmapUpdate c _ _ _ => some (c, 20)
  | .ingestBind c _ _ => some (c, 21)
  | .stackEvacuate c _ => some (c, 22)
  | .stepLoad c _ _ => some (c, 23)
  | .stepActivate c _ => some (c, 24)
  | .stepHalt c => some (c, 25)
  | .stepResume c => some (c, 26)
  | .seqWrite c _ => some (c, 27)
  | .seqRead c _ _ => some (c, 28)
  | .hint c _ => some (c, 29)
  | .launch c _ => some (c, 30)
  | .kernelKill c _ _ => some (c, 31)
  | .revoke c _ => some (c, 32)
  | .domainJoin c => some (c, 33)
  | .domainExclude c _ => some (c, 34)
  | .domainStatus c => some (c, 35)
  | .powerLimit c _ _ => some (c, 36)
  | .powerMode c _ => some (c, 37)
  | .sensorRead c => some (c, 38)
  | .repair c _ _ _ _ => some (c, 39)
  | .getAttest c _ => some (c, 40)
  | .getCerts c _ => some (c, 41)
  | .fwLoad c _ _ => some (c, 42)
  | .fwActivate c => some (c, 43)
  | .imagePush c _ _ => some (c, 44)
  | _ => none

/-- The part as a command finds it: a packet that came by no queue is counted as it arrives (R673). -/
def Machine.Part.counted (p : Part) (c : Issue) : Part := if c.cls = .m ∨ c.cls = .t then p else p.inc CMD_COUNTS_ACCEPTED

/-- A packet of a host queue that reaches a detached part (R637): only ATTACH acts. -/
def Machine.Part.detachedFor (p : Part) (c : Issue) (i : Nat) : Prop :=
  (c.cls = .m ∨ c.cls = .t) ∧ c.origin = none ∧ p.attached = false ∧ i ≠ 2

/-- A header that no class allows (R648): the PF's class from a VF, a VF's class from the PF, a forwarded packet that would be forwarded again. -/
def Issue.badFor (c : Issue) : Prop :=
  (c.cls = .m ∧ c.fn ≠ 0) ∨ (c.cls = .t ∧ c.fn = 0) ∨ (c.origin.isSome = true ∧ c.remote.isSome = true)

/-- Packet `c` with opcode number `i` passes every check of the Husk and is performed by this part (R657, R658, R665, R666). -/
structure Machine.Part.Passes (p : Part) (c : Issue) (i : Nat) : Prop where
  stage  : p.stage = 7
  here   : ¬ p.detachedFor c i
  header : ¬ c.badFor
  class_ : (p.counted c).admits i c.cls = true
  origin : ∀ d, c.origin = some d → (p.counted c).member d = true
  remote : ∀ d, c.remote = some d → d.val = p.dev

/-- A command had its effect and then its status reply `st`: `E` is met by the part as it replied, DETAIL and the output. -/
def Machine.Part.Replied (q : Part) (c : Issue) (st : Nat) (E : Part → Nat → List Byte → Prop) : Prop :=
  ∃ r detail data, q = r.reply c st detail data ∧ E r detail data

/-- A command that only answers: status, DETAIL and output; nothing else of the part, as the packet found it, changed. -/
def Machine.Part.Answers (p q : Part) (c : Issue) (st detail : Nat) (data : List Byte) : Prop := q = (p.counted c).reply c st detail data

/-- The Husk turned a packet away with `st` (R658, R673): counted, the first such packet held in CMD_REJECT. -/
def Machine.Part.Denied (p q : Part) (c : Issue) (op st : Nat) : Prop :=
  q.Replied c st fun r detail data => detail = 0 ∧ data = [] ∧ r.rd CMD_REJECT_VALID = 1 ∧
    r.rd CMD_COUNTS_DENIED = min (p.rd CMD_COUNTS_DENIED + 1) 65535 ∧
    (p.rd CMD_REJECT_VALID = 0 → r.rd CMD_REJECT_OPCODE = op ∧ r.rd CMD_REJECT_STATUS = st ∧ r.rd CMD_REJECT_CLASS = classCode c.cls ∧
      r.rd CMD_REJECT_FN = c.fn.val)

end Sys2Proof
end

