-- ==== Sys2Proof/Certificates/Slice0/Obligations.lean ====
section
/-! DEFINITION. Certificates/Slice0/Obligations.lean: what the model claims of itself, for the provers. `gives` is a completion: the command answers a
next state that differs in the part alone, as said. -/

open Sys2Proof
open Sys2Proof.Machine

/-- For every command c and state s with c at the front of its queue, step of s is exec of c on s with the queue's rest. On an empty queue a part that is
not in package reset advances domain time by one reference period of 6.4 ns and changes nothing else (the model's own idle step, log 12); in package
reset it changes nothing. (spec/02_step_tick.md; notes/assumptions/12.md (the idle step is a design choice)) -/
def Obligations.StepTakesFirstCommand : Prop :=
  (∀ (c : Instr) (rest : List Instr) (s : State), s.pending = c :: rest → step s = exec c { s with pending := rest }) ∧
  (∀ s : State, s.pending = [] → s.pins.inReset = false → step s = .next { s with part := { s.part with now := s.part.now + 64 } }) ∧
  (∀ s : State, s.pending = [] → s.pins.inReset = true → step s = .next s)

/-- For every command and every state, exec answers a next state whose queue of waiting commands is the one it was given; therefore every step of the
machine goes on. The part rejects by an event, a status or a fault code of its own, all of which are next states. (spec/15_symbite_commands.md; spec/03_thread_groups.md; spec/14_host_coupling.md) -/
def Obligations.EveryCommandGoesOn : Prop :=
  (∀ (c : Instr) (s : State), ∃ t, exec c s = .next t ∧ t.pending = s.pending) ∧ (∀ s : State, s.goesOn)

/-- In a state in which GLOBAL_ELOG_STATUS.FATAL is set, a command that is not one of those listed in Instr.actsWhenFatal (NOP, IDENTIFY, LOG_READ,
SENSOR_READ and GET_ATTEST, the host and management accesses that carry them, link and function resets, the tick boundary at which repair records are
written, firmware slot writes, the boot stages, pins and JTAG) leaves every part of the state unchanged. (spec/18_reliability_repair.md) -/
def Obligations.FatalErrorHoldsState : Prop :=
  ∀ (c : Instr) (s : State), s.part.fatal = true → c.actsWhenFatal = false → exec c s = .next s

/-- In package reset every unit is held: a command that is not one of those listed in Instr.actsInReset (POR_N, rails, the JTAG instructions and TRST_N)
leaves every part of the state unchanged; RAIL_LOSS leaves the part unchanged and changes the rails' own state alone. (spec/20_package_signals.md) -/
def Obligations.PackageResetHoldsState : Prop :=
  (∀ (c : Instr) (s : State), s.pins.inReset = true → c.actsInReset = false → exec c s = .next s) ∧
  (∀ (r : RailId) (s : State), s.pins.inReset = true → ∃ pins, exec (.railLoss r) s = .next { s with pins := pins } ∧ pins.inReset = true)

/-- If in a state a low POR_N means that package reset is in force, then every next state has that property: no command, event, rail or JTAG instruction
ends the reset while POR_N is low. (spec/20_package_signals.md) -/
def Obligations.PorLowKeepsReset : Prop :=
  ∀ s t : State, (s.pins.porN = false → s.pins.inReset = true) → step s = .next t → (t.pins.porN = false → t.pins.inReset = true)

/-- For every command other than TICK_BOUNDARY (repair records), SLOT_WRITE_DONE, POR_N_ASSERT (which interrupts a slot write in progress) and IMAGE_PUSH,
the next state holds the serial memory the command was given; IMAGE_PUSH changes it only in the Recovery stage. (spec/19_boot_identity_husk.md; spec/18_reliability_repair.md) -/
def Obligations.SerialMemoryChangedByFewRows : Prop :=
  (∀ (c : Instr) (s t : State), c.writesSerial = false → exec c s = .next t → t.serial = s.serial) ∧
  (∀ (i : Issue) (off : Nat) (chunk : List Byte) (s t : State), s.part.stage ≠ 8 → exec (.imagePush i off chunk) s = .next t → t.serial = s.serial)

/-- State.reset has an empty queue, no byte of memory listed and memory in canonical form, a part that is live in boot stage 0 with no fatal error, POR_N
high; TICK_CTL reads period 20,000 us, guard 20 us, stretch limit and replay limit as its reset value, GLOBAL_PART reads part 1224h, LIMIT_W reads its
reset value, and the low-POR_N property holds. (spec/02_step_tick.md; spec/01_organisation.md; spec/20_package_signals.md) -/
def Obligations.ResetStateHoldsReset : Prop :=
  State.reset.pending = [] ∧ State.reset.part.mem = [] ∧ State.reset.memoryWf ∧ State.reset.part.dirtyWf ∧ State.reset.part.FnsOk ∧ State.reset.live ∧ State.reset.part.stage = 0 ∧
  State.reset.part.rd GLOBAL_PART_PART = 0x1224 ∧ State.reset.part.rd TICK_CTL_PERIOD_US = 20000 ∧ State.reset.part.rd TICK_CTL_GUARD_US = 20 ∧
  State.reset.part.rd TICK_CTL_STRETCH_MAX = 1 ∧ State.reset.part.rd TICK_CTL_REPLAY_MAX = 2 ∧ State.reset.part.rd TICK_CTL_OVERRUN_POLICY = 0 ∧
  State.reset.part.lockL = 0 ∧ (State.reset.pins.porN = false → State.reset.pins.inReset = true)

/-- For every live part and ready group: IADD and IMUL write the exact INT32 sum and product where it lies in the range of INT32, and otherwise the lane's
free value (the spec states no result, log 2); compare writes the word the model leaves free for false or true (log 8), select its first value where
the predicate register holds the word for true, logic the bitwise result (forms of log 8); SHFL writes the value of lane vb mod 32 where that lane is
active, else a free value (log 8). Inactive lanes, other registers, marks, memory, other groups and tiles and every control register but the tile's
own instruction and rotation counters are unchanged. (spec/03_thread_groups.md; spec/05_number_formats.md; notes/assumptions/2.md and 8.md (free values and instruction forms are the model's)) -/
def Obligations.IntegerAndLogicResults : Prop :=
  ∀ (s : State) (t : TileId) (g : GroupId) (vd va vb : Nat), s.live → s.part.Ready t g [vd, va, vb] [va, vb] →
    s.gives (.iadd t g vd va vb) (fun q => s.part.Wrote q t g vd fun l =>
      let x := sint 32 ((s.part.group t g).rg va l).toNat + sint 32 ((s.part.group t g).rg vb l).toNat
      if -2147483648 ≤ x ∧ x ≤ 2147483647 then BitVec.ofInt 32 x else Config.freeWord (s.part.freeCtr + l)) ∧
    s.gives (.imul t g vd va vb) (fun q => s.part.Wrote q t g vd fun l =>
      let x := sint 32 ((s.part.group t g).rg va l).toNat * sint 32 ((s.part.group t g).rg vb l).toNat
      if -2147483648 ≤ x ∧ x ≤ 2147483647 then BitVec.ofInt 32 x else Config.freeWord (s.part.freeCtr + l)) ∧
    (∀ c : Cond, s.gives (.compare t g c vd va vb) (fun q => s.part.Wrote q t g vd fun l =>
      Config.compareWord (holds c ((s.part.group t g).rg va l) ((s.part.group t g).rg vb l)))) ∧
    s.gives (.logic t g .and vd va vb) (fun q => s.part.Wrote q t g vd fun l => (s.part.group t g).rg va l &&& (s.part.group t g).rg vb l) ∧
    s.gives (.logic t g .or vd va vb) (fun q => s.part.Wrote q t g vd fun l => (s.part.group t g).rg va l ||| (s.part.group t g).rg vb l) ∧
    s.gives (.logic t g .xor vd va vb) (fun q => s.part.Wrote q t g vd fun l => (s.part.group t g).rg va l ^^^ (s.part.group t g).rg vb l) ∧
    (s.part.Ready t g [vd, va] [va] → s.gives (.logic t g .not vd va vb) (fun q => s.part.Wrote q t g vd fun l => ~~~ (s.part.group t g).rg va l)) ∧
    (∀ vp : Nat, s.part.Ready t g [vd, vp, va, vb] [vp, va, vb] → s.gives (.select t g vd vp va vb) (fun q => s.part.Wrote q t g vd fun l =>
      if (s.part.group t g).rg vp l = Config.compareWord true then (s.part.group t g).rg va l else (s.part.group t g).rg vb l)) ∧
    s.gives (.shfl t g vd va vb) (fun q => s.part.Wrote q t g vd fun l =>
      let k := ((s.part.group t g).rg vb l).toNat % 32
      if (s.part.group t g).act.getLsbD k = true then (s.part.group t g).rg va k else Config.freeWord (s.part.freeCtr + l))

/-- For every live part and ready group: FADD, FMUL and FMA write, in each active lane, the exact sum, product, or product and sum, rounded once to
binary32, to nearest with ties to even, with subnormals kept; SQRT, RCP, RSQ, EXP2, LOG2, SIN and COS write the result their function gives for the
lane's input. Everything else is unchanged. SQRT of -0 is -0, of +Inf is +Inf; RCP of a zero is the infinity of its sign and of an infinity the zero
of its sign; RSQ of a zero is the infinity of its sign, of +Inf is +0; SQRT, RSQ and LOG2 of a negative value that is neither zero nor NaN give the
canonical NaN; EXP2 of -Inf is +0 and of +Inf is +Inf; LOG2 of either zero is -Inf and of +Inf is +Inf; SIN and COS of an infinity give NaN, and past
an input magnitude of 2^15 their result has magnitude at most 1; each function gives the canonical NaN for a NaN. (spec/05_number_formats.md; notes/assumptions/7.md (which result inside the bounds of the special functions is free)) -/
def Obligations.FloatResults : Prop :=
  (
  ∀ (s : State) (t : TileId) (g : GroupId) (vd va vb vc vs : Nat), s.live →
    (s.part.Ready t g [vd, va, vb] [va, vb] →
      s.gives (.fadd t g vd va vb) (fun q => s.part.Wrote q t g vd fun l =>
        enc32 (fvAdd (dec32 ((s.part.group t g).rg va l)) (dec32 ((s.part.group t g).rg vb l)))) ∧
      s.gives (.fmul t g vd va vb) (fun q => s.part.Wrote q t g vd fun l =>
        enc32 (fvMul (dec32 ((s.part.group t g).rg va l)) (dec32 ((s.part.group t g).rg vb l))))) ∧
    (s.part.Ready t g [vd, va, vb, vc] [va, vb, vc] → s.gives (.fma t g vd va vb vc) (fun q => s.part.Wrote q t g vd fun l =>
        enc32 (fvAdd (fvMul (dec32 ((s.part.group t g).rg va l)) (dec32 ((s.part.group t g).rg vb l))) (dec32 ((s.part.group t g).rg vc l))))) ∧
    (s.part.Ready t g [vd, vs] [vs] →
    s.gives (.sqrt t g vd vs) (fun q => s.part.Wrote q t g vd fun l => sqrt32 ((s.part.group t g).rg vs l)) ∧
    s.gives (.rcp t g vd vs) (fun q => s.part.Wrote q t g vd fun l => rcp32 ((s.part.group t g).rg vs l)) ∧
    s.gives (.rsq t g vd vs) (fun q => s.part.Wrote q t g vd fun l => rsq32 ((s.part.group t g).rg vs l)) ∧
    s.gives (.exp2 t g vd vs) (fun q => s.part.Wrote q t g vd fun l => exp2f ((s.part.group t g).rg vs l)) ∧
    s.gives (.log2 t g vd vs) (fun q => s.part.Wrote q t g vd fun l => log2f ((s.part.group t g).rg vs l)) ∧
    s.gives (.sin t g vd vs) (fun q => s.part.Wrote q t g vd fun l => trig false Config.sin ((s.part.group t g).rg vs l)) ∧
    s.gives (.cos t g vd vs) (fun q => s.part.Wrote q t g vd fun l => trig true Config.cos ((s.part.group t g).rg vs l)))) ∧
  (
  sqrt32 0x80000000 = 0x80000000 ∧ sqrt32 0x7F800000 = 0x7F800000 ∧
  rcp32 0 = 0x7F800000 ∧ rcp32 0x80000000 = 0xFF800000 ∧ rcp32 0x7F800000 = 0 ∧ rcp32 0xFF800000 = 0x80000000 ∧
  rsq32 0 = 0x7F800000 ∧ rsq32 0x80000000 = 0xFF800000 ∧ rsq32 0x7F800000 = 0 ∧
  exp2f 0xFF800000 = 0 ∧ exp2f 0x7F800000 = 0x7F800000 ∧ log2f 0 = 0xFF800000 ∧ log2f 0x80000000 = 0xFF800000 ∧ log2f 0x7F800000 = 0x7F800000 ∧
  (∀ w : W32, 0x80000000 < w.toNat → w.toNat ≤ 0xFF800000 → sqrt32 w = 0x7FC00000 ∧ rsq32 w = 0x7FC00000 ∧ log2f w = 0x7FC00000) ∧
  (∀ (c : Bool) (f : W32 → W32) (w : W32), w.toNat % 2 ^ 31 = 0x7F800000 → trig c f w = 0x7FC00000) ∧
  (∀ (c : Bool) (f : W32 → W32) (w : W32), 0x47000000 < w.toNat % 2 ^ 31 → w.toNat % 2 ^ 31 < 0x7F800000 → (trig c f w).toNat % 2 ^ 31 ≤ 0x3F800000) ∧
  (∀ (c : Bool) (f : W32 → W32) (w : W32), 0x7F800000 < w.toNat % 2 ^ 31 →
    sqrt32 w = 0x7FC00000 ∧ rcp32 w = 0x7FC00000 ∧ rsq32 w = 0x7FC00000 ∧ exp2f w = 0x7FC00000 ∧ log2f w = 0x7FC00000 ∧ trig c f w = 0x7FC00000))

/-- For every live part and ready group: a CVT that the table of conversions lists writes the converted value to vd of each active lane; BCVT.SB4.F32
writes each active lane's word of the block formed of the active lanes' values and +0 in the others; BCVT.F32.SB4 writes the element's value. Nothing
else changes. A CVT the table does not list, or with a saturation modifier it does not name, faults with ILLEGAL_INSTR and changes no register. (spec/05_number_formats.md) -/
def Obligations.ConversionResults : Prop :=
  ∀ (s : State) (t : TileId) (g : GroupId) (vd vs : Nat) (dst src : Fmt) (m : RMode) (sm : SatMod), s.live →
    (s.part.Ready t g [vd, vs] [vs] →
      (cvtDefined dst src sm = true → s.gives (.cvt t g dst src m sm vd vs) (fun q => s.part.Wrote q t g vd fun l => cvt dst src m sm ((s.part.group t g).rg vs l))) ∧
      s.gives (.bcvtSb4F32 t g m vd vs) (fun q => s.part.Wrote q t g vd fun l =>
        (bcvtToSb4 m ((List.range 32).map fun i =>
          if (s.part.group t g).act.getLsbD i then dec32 ((s.part.group t g).rg vs i) else .fin false 0 0)).getD l 0) ∧
      s.gives (.bcvtF32Sb4 t g vd vs) (fun q => s.part.Wrote q t g vd fun l => bcvtFromSb4 l ((s.part.group t g).rg vs l))) ∧
    (s.part.Ready t g [] [] → cvtDefined dst src sm = false → s.gives (.cvt t g dst src m sm vd vs) (fun q => s.part.TookFault q t g 0x01 0))

/-- For every live part and ready group, S2R writes to vd of each active lane: for code 0 the lane number, 1 the group's index in its block, 2 the groups
of the block, 8 the logical tile, 9 the function whose work the tile runs, 10 the device ID, 11 the low 32 bits of the tick number held since the
group started; in a kernel 3 the block index, 4 the number of blocks, 5 and 6 the low and high word of ARG_PTR, 7 the block's local base; in the step
program these five are 0, 1, 0, 0 and 0. A code from 12 up faults with ILLEGAL_INSTR. (spec/03_thread_groups.md) -/
def Obligations.SpecialValues : Prop :=
  ∀ (s : State) (t : TileId) (g : GroupId) (vd : Nat), s.live →
    (s.part.Ready t g [vd] [] →
      s.gives (.s2r t g vd 0) (fun q => s.part.Wrote q t g vd fun l => BitVec.ofNat 32 l) ∧
      s.gives (.s2r t g vd 1) (fun q => s.part.Wrote q t g vd fun _ => BitVec.ofNat 32 (s.part.group t g).index) ∧
      s.gives (.s2r t g vd 2) (fun q => s.part.Wrote q t g vd fun _ => BitVec.ofNat 32 ((s.part.tile t).block (s.part.group t g).block).groups) ∧
      ((s.part.tile t).work = .step → s.gives (.s2r t g vd 4) (fun q => s.part.Wrote q t g vd fun _ => 1) ∧
        ∀ code ∈ [3, 5, 6, 7], s.gives (.s2r t g vd code) (fun q => s.part.Wrote q t g vd fun _ => 0)) ∧
      s.gives (.s2r t g vd 8) (fun q => s.part.Wrote q t g vd fun _ => BitVec.ofNat 32 t.val) ∧
      s.gives (.s2r t g vd 9) (fun q => s.part.Wrote q t g vd fun _ => BitVec.ofNat 32 (s.part.tileFn t)) ∧
      s.gives (.s2r t g vd 10) (fun q => s.part.Wrote q t g vd fun _ => BitVec.ofNat 32 s.part.dev) ∧
      s.gives (.s2r t g vd 11) (fun q => s.part.Wrote q t g vd fun _ => (s.part.group t g).tick) ∧
      (∀ (i : Nat) (k : Kernel), (s.part.tile t).work = .kernel i → s.part.kernel i = some k →
        s.gives (.s2r t g vd 3) (fun q => s.part.Wrote q t g vd fun _ => BitVec.ofNat 32 ((s.part.tile t).block (s.part.group t g).block).index) ∧
        s.gives (.s2r t g vd 4) (fun q => s.part.Wrote q t g vd fun _ => BitVec.ofNat 32 k.p.blocks) ∧
        s.gives (.s2r t g vd 5) (fun q => s.part.Wrote q t g vd fun _ => BitVec.ofNat 32 k.p.argPtr) ∧
        s.gives (.s2r t g vd 6) (fun q => s.part.Wrote q t g vd fun _ => BitVec.ofNat 32 (k.p.argPtr / 2 ^ 32 % 2 ^ 16)) ∧
        s.gives (.s2r t g vd 7) (fun q => s.part.Wrote q t g vd fun _ => BitVec.ofNat 32 ((s.part.tile t).block (s.part.group t g).block).base))) ∧
    (∀ code : Nat, 11 < code → s.part.Ready t g [] [] → s.gives (.s2r t g vd code) (fun q => s.part.TookFault q t g 0x01 0))

/-- For every live part and ready group. A BRA that no active thread takes goes on at pc + 8; one that all take goes on at the target, as a backward
branch when the target is not above its own address; a divergent one (its current path being one of the group's, as every run keeps it) pushes the
taken threads below as a pending path and the fall-through threads go on at pc + 8. JMP goes on at its target. JMP.IND and RET whose active lanes all
name one target go on there, and divergent ones split into one path per target, lowest running. CALL writes the low 32 bits of pc + 8 to vd of the
active lanes (return addresses are 32 bits, log 10) and goes on at its target. Registers, memory and the rest are unchanged. (spec/03_thread_groups.md; notes/assumptions/10.md (8-byte instructions, 32-bit register targets)) -/
def Obligations.BranchesMovePaths : Prop :=
  ∀ (s : State) (t : TileId) (g : GroupId), s.live →
    (∀ (c : Cond) (va vb : Nat) (target reconv : Pc), s.part.Ready t g [va, vb] [va, vb] →
      let y := s.part.group t g
      let taken := maskOf fun l => y.act.getLsbD l && holds c (y.rg va l) (y.rg vb l)
      (taken = 0 → s.gives (.bra t g c va vb target reconv) (fun q => s.part.Moved q t g (y.issued (y.pc + 8) false).1)) ∧
      (taken ≠ 0 → taken = y.act → s.gives (.bra t g c va vb target reconv) (fun q => s.part.Moved q t g (y.issued target (decide (target ≤ y.pc))).1)) ∧
      (taken ≠ 0 → taken ≠ y.act → y.cur < y.paths.length → s.gives (.bra t g c va vb target reconv) (fun q =>
        s.part.Moved q t g ((y.divide reconv y.pc (y.act &&& ~~~taken) [(target, taken)]).issued (y.pc + 8) false).1))) ∧
    (∀ target : Pc, s.part.Ready t g [] [] →
      s.gives (.jmp t g target) (fun q => s.part.Moved q t g ((s.part.group t g).issued target (decide (target ≤ (s.part.group t g).pc))).1)) ∧
    (∀ (vs : Nat) (reconv : Pc) (i : Instr), i = .jmpInd t g vs reconv ∨ i = .ret t g vs reconv → s.part.Ready t g [vs] [vs] →
      let y := s.part.group t g
      let m (a : Nat) : LaneMask := maskOf fun l => y.act.getLsbD l && decide (y.target vs l = a)
      ∀ (a : Nat) (rest : List Nat), sortAsc (distinct ((lanesOf y.act).map (y.target vs))) = a :: rest →
        (rest = [] → s.gives i (fun q => s.part.Moved q t g (y.issued (BitVec.ofNat 48 a) false).1)) ∧
        (rest ≠ [] → s.gives i (fun q => s.part.Moved q t g
          ((y.divide reconv y.pc (m a) (rest.reverse.map fun b => (BitVec.ofNat 48 b, m b))).issued (BitVec.ofNat 48 a) false).1))) ∧
    (∀ (vd : Nat) (target : Pc), s.part.Ready t g [vd] [] →
      s.gives (.call t g vd target) (fun q => s.part.Wrote q t g vd fun _ => ((s.part.group t g).pc + 8).truncate 32))

/-- When the group has one path, not split from any branch, an instruction of the one-register kind (those of Instr.oneReg) that issues leaves that path
alone, with its mask, at pc + 8; JMP leaves it at its target; a divergent BRA leaves two paths: the fall-through threads current at pc + 8 and the
taken threads waiting below at the target, both split from one record that expects all the threads at the reconvergence address. In a group with
exactly two paths split from one record that nothing has reached yet, settling when the second path stands at the reconvergence address takes that
path off, notes its threads as arrived and runs the other path; settling when the last expected threads stand there leaves one path at the address
with the threads of both, and no record. (spec/03_thread_groups.md; notes/assumptions/10.md (8-byte instructions)) -/
def Obligations.PathsSplitAndRejoin : Prop :=
  (
  ∀ (s : State) (t : TileId) (g : GroupId) (y0 : Path), s.live → (s.part.group t g).paths = [y0] → (s.part.group t g).cur = 0 → y0.split = none →
    (∀ (i : Instr) (vd : Nat) (srcs : List Nat), i.oneReg = some (t, g, vd, srcs) → s.part.Ready t g (vd :: srcs) srcs →
      s.gives i (fun q => ∃ x, (q.group t g).paths = [x] ∧ (q.group t g).cur = 0 ∧ x.pc = y0.pc + 8 ∧ x.mask = y0.mask ∧ x.split = none)) ∧
    (∀ target : Pc, s.part.Ready t g [] [] →
      s.gives (.jmp t g target) (fun q => ∃ x, (q.group t g).paths = [x] ∧ (q.group t g).cur = 0 ∧ x.pc = target ∧ x.mask = y0.mask ∧ x.split = none)) ∧
    (∀ (c : Cond) (va vb : Nat) (target reconv : Pc), s.part.Ready t g [va, vb] [va, vb] → (s.part.group t g).splits = [] →
      let y := s.part.group t g
      let taken := maskOf fun l => y.act.getLsbD l && holds c (y.rg va l) (y.rg vb l)
      taken ≠ 0 → taken ≠ y.act → target ≠ reconv → y0.pc + 8 ≠ reconv → y0.slots < 63 →
      s.gives (.bra t g c va vb target reconv) (fun q => ∃ a b, (q.group t g).paths = [a, b] ∧ (q.group t g).cur = 1 ∧
        a.pc = target ∧ a.mask = taken ∧ b.pc = y0.pc + 8 ∧ b.mask = y0.mask &&& ~~~taken ∧
        (q.group t g).splits = [{ id := y.nextId, reconv := reconv, expected := y0.mask, parent := none }] ∧ a.split = some y.nextId ∧ b.split = some y.nextId))) ∧
  (
  ∀ (y : Group) (a b : Path) (d : Split), d.parent = none → a.split = some d.id → b.split = some d.id → a.mask &&& b.mask = 0 → d.expected = a.mask ||| b.mask →
    a.mask ≠ 0 → b.mask ≠ 0 → y.splits = [d] →
    (y.paths = [a, b] → y.cur = 1 → d.arrived = 0 → a.pc ≠ d.reconv → b.pc = d.reconv →
      (y.settle 64).paths = [{ a with slots := 0, back := false }] ∧ (y.settle 64).cur = 0 ∧ (y.settle 64).splits = [{ d with arrived := b.mask }]) ∧
    (y.paths = [a] → y.cur = 0 → d.arrived = b.mask → a.pc = d.reconv →
      (∃ x, (y.settle 64).paths = [x] ∧ x.pc = d.reconv ∧ x.mask = a.mask ||| b.mask ∧ x.split = none) ∧ (y.settle 64).splits = []))

/-- For every live part and ready group with no transaction open: GBAR with all live threads active goes on and changes nothing else; BBAR then goes on
and its group waits at the block's barrier or, when it is the last of its block to arrive, ends the wait of all (BBAR.REL first waits as a release of
barrier kind); GBAR and BBAR with some live thread not active fault with BARRIER_DIVERGED. TRAP faults with code TRAP and its operand as address. EXIT
of some of the live threads takes them off the group; EXIT of the last ones with no token outstanding and none in error ends the group, with its code
the fault if a token is in error. SID.SET takes the low 12 bits of vs in the lowest active lane. When the barrier timer of a block expires, the tile's
work has faulted with BARRIER_TIMEOUT and no group of that block is live. In a live part, for a tile whose block slot b has a group waiting at its
barrier: the tile's work has faulted; if no fault was captured, BARRIER_TIMEOUT is captured as a fault of the block, at the address of the first BBAR,
in no group; no group of the block is live afterwards. A slot where no group waits is left as it was. (spec/03_thread_groups.md; spec/10_memory_model.md; spec/04_matrix_unit.md) -/
def Obligations.BarriersTrapsAndExit : Prop :=
  (
  ∀ (s : State) (t : TileId) (g : GroupId), s.live → s.part.Ready t g [] [] →
    (∀ imm : BitVec 16, s.gives (.trap t g imm) (fun q => s.part.TookFault q t g 0x09 imm.toNat)) ∧
    ((s.part.group t g).tx = none → (s.part.group t g).act = (s.part.group t g).live →
      s.gives (.gbar t g) (fun q => s.part.Moved q t g ((s.part.group t g).issued ((s.part.group t g).pc + 8) false).1) ∧
      s.gives (.bbar t g true) (fun q => ∃ z : Group, z = ((s.part.group t g).issued ((s.part.group t g).pc + 8) false).1 ∧
        s.part.Moved q t g { z with wait := .release { op := .barrier, since := s.part.nextId, pc := (s.part.group t g).pc, mask := (s.part.group t g).act } }) ∧
      (((∃ g', g' ∈ (s.part.tile t).blockGroups (s.part.group t g).block ∧ g' ≠ g ∧ g' ∉ ((s.part.tile t).block (s.part.group t g).block).arrived) →
        s.gives (.bbar t g false) (fun q => (q.group t g).wait = .barrier ∧ g.val ∈ ((q.tile t).block (s.part.group t g).block).arrived)) ∧
       ((∀ g', g' ∈ (s.part.tile t).blockGroups (s.part.group t g).block → g' ≠ g → g' ∈ ((s.part.tile t).block (s.part.group t g).block).arrived) →
        s.gives (.bbar t g false) (fun q => (q.group t g).wait = .none ∧ ((q.tile t).block (s.part.group t g).block).arrived = []))) ∧
      (∀ vs : Nat, s.part.Ready t g [vs] [vs] → s.gives (.sidSet t g vs) (fun q =>
        (q.group t g).sid = ((s.part.group t g).rg vs (s.part.group t g).lowLane).truncate 12 ∧ s.part.OnlyGroup q t g ∧
        ∀ r l, (q.group t g).rg r l = (s.part.group t g).rg r l))) ∧
    ((s.part.group t g).tx = none → (s.part.group t g).act ≠ (s.part.group t g).live →
      s.gives (.gbar t g) (fun q => s.part.TookFault q t g 0x07 0) ∧ (∀ rel : Bool, s.gives (.bbar t g rel) (fun q => s.part.TookFault q t g 0x07 0)) ∧
      ((s.part.group t g).live &&& ~~~(s.part.group t g).act ≠ 0 →
        s.gives (.exit t g) (fun q => (q.group t g).live = (s.part.group t g).live &&& ~~~(s.part.group t g).act ∧ s.part.OnlyGroup q t g ∧
          ∀ r l, (q.group t g).rg r l = (s.part.group t g).rg r l))) ∧
    ((s.part.group t g).tx = none → (s.part.group t g).act = (s.part.group t g).live → (s.part.group t g).outstanding = false →
      ((s.part.group t g).firstError = none → s.gives (.exit t g) (fun q => (q.group t g).live = 0)) ∧
      (∀ code, (s.part.group t g).firstError = some code → code < 65536 → s.gives (.exit t g) (fun q => s.part.TookFault q t g code 0)))) ∧
  (
  ∀ (s : State) (t : TileId) (b : Fin 8), s.live →
    (((s.part.tile t).block b).firstPc = none → exec (.barrierTimeout t b) s = .next s) ∧
    (∀ pc : Pc, ((s.part.tile t).block b).firstPc = some pc → s.gives (.barrierTimeout t b) (fun q =>
      (q.tile t).faulted = true ∧ q.rd TL_EVENTS_FAULT t = 1 ∧ (∀ g, g < 16 → (q.group t g).live ≠ 0 → (q.group t g).block ≠ b.val) ∧
      (s.part.rd TL_EVENTS_FAULT t = 0 → q.rd TL_FAULT_CODE t = 0x08 ∧ q.rd TL_FAULT_BLOCK_FAULT t = 1 ∧ q.rd TL_FAULT_BLOCK t = b.val ∧ q.rd TL_FAULT_PC_PC t = pc.toNat))))

/-- For a live part whose group can issue with its sources written: if its program counter is no address of the part the instruction faults with
ADDR_RANGE, if it lies in no window granted to the tile's owner with ACCESS_DENIED, both at that address; if the fetch is admitted and a named
register is at or above n_reg it faults with REG_BOUND; otherwise, if an active lane of a source register is marked, it faults with the mark's code.
No register is written. (spec/03_thread_groups.md) -/
def Obligations.IssueFaults : Prop :=
  ∀ (s : State) (t : TileId) (g : GroupId) (i : Instr) (vd : Nat) (srcs : List Nat), s.live → i.oneReg = some (t, g, vd, srcs) → s.part.canIssue t g = true → (s.part.group t g).srcReady srcs = true →
    (s.part.hasHome (s.part.group t g).pc.toNat = false → s.gives i (fun q => s.part.TookFault q t g 0x04 (s.part.group t g).pc.toNat)) ∧
    (s.part.hasHome (s.part.group t g).pc.toNat = true → s.part.granted (s.part.tileFn t) (s.part.group t g).pc.toNat 1 false = false →
      s.gives i (fun q => s.part.TookFault q t g 0x05 (s.part.group t g).pc.toNat)) ∧
    (s.part.fetchFault t g = none → (∃ r ∈ vd :: srcs, (s.part.group t g).nReg ≤ r) → s.gives i (fun q => s.part.TookFault q t g 0x02 0)) ∧
    (s.part.fetchFault t g = none → (∀ r ∈ vd :: srcs, r < (s.part.group t g).nReg) → ∀ f : FaultInfo, (s.part.group t g).markFault srcs = some f →
      f.code ∈ [0x0A, 0x60, 0x0E, 0x0F] → s.gives i (fun q => s.part.TookFault q t g f.code f.addr))

/-- For every live part and ready group whose addresses pass the checks: LD.S writes register vd + i of each active lane with word i of the bytes at the
lane's offset (a size below 4 zero- or sign-extended), leaves the array, every other register and memory as they were. ST.S writes each byte that
active lanes give one value, leaves every byte no active lane covers and every register; a byte that lanes give different values is a free value (log
2). A size or extension that does not exist faults with ILLEGAL_INSTR, a failed check with the code, and at the lowest address, that the checks give. (spec/07_tile_local_array.md; spec/03_thread_groups.md; notes/assumptions/2.md (lanes that disagree on one byte)) -/
def Obligations.ScratchpadLoadsAndStores : Prop :=
  ∀ (s : State) (t : TileId) (g : GroupId) (size : Nat) (sx : Bool) (vd va vs : Nat), s.live →
    (sizeOk size sx = true → s.part.Ready t g (va :: dataRegs vd size) [va] →
      (s.part.checkScratch t g size va = none → s.gives (.ldS t g size sx vd va) (fun q => s.part.OnTile q t g ∧ (q.tile t).arr = (s.part.tile t).arr ∧
        (∀ l i, l < 32 → (s.part.group t g).act.getLsbD l = true → i < (size + 3) / 4 → (q.group t g).rg (vd + i) l =
          loadWord size sx ((s.part.tile t).arrBytes ((s.part.group t g).offset va l) size) i) ∧
        (∀ r l, l < 32 → r ∉ dataRegs vd size ∨ (s.part.group t g).act.getLsbD l = false → (q.group t g).rg r l = (s.part.group t g).rg r l))) ∧
      (∀ f, s.part.checkScratch t g size va = some f → s.gives (.ldS t g size sx vd va) (fun q => s.part.TookFault q t g f.code f.addr))) ∧
    (sizeOk size false = true → s.part.Ready t g (va :: dataRegs vs size) (va :: dataRegs vs size) →
      (s.part.checkScratch t g size va = none → s.gives (.stS t g size va vs) (fun q => s.part.OnTile q t g ∧
        (∀ l i, l < 32 → (s.part.group t g).act.getLsbD l = true → i < size →
          (∀ k j, k < 32 → (s.part.group t g).act.getLsbD k = true → j < size → (s.part.group t g).offset va k + j = (s.part.group t g).offset va l + i →
            ((s.part.group t g).storeBytes vs size k)[j]? = ((s.part.group t g).storeBytes vs size l)[i]?) →
          some (mget 0 (q.tile t).arr ((s.part.group t g).offset va l + i)) = ((s.part.group t g).storeBytes vs size l)[i]?) ∧
        (∀ o, (∀ l i, l < 32 → (s.part.group t g).act.getLsbD l = true → i < size → o ≠ (s.part.group t g).offset va l + i) →
          mget 0 (q.tile t).arr o = mget 0 (s.part.tile t).arr o) ∧
        (∀ r l, (q.group t g).rg r l = (s.part.group t g).rg r l))) ∧
      (∀ f, s.part.checkScratch t g size va = some f → s.gives (.stS t g size va vs) (fun q => s.part.TookFault q t g f.code f.addr))) ∧
    (s.part.Ready t g [] [] → (sizeOk size sx = false → s.gives (.ldS t g size sx vd va) (fun q => s.part.TookFault q t g 0x01 0)) ∧
      (sizeOk size false = false → s.gives (.stS t g size va vs) (fun q => s.part.TookFault q t g 0x01 0)))

/-- For every live part and ready group with no transaction open, and a load of any size whose lanes pass the checks, wait for no store-buffer entry and
name no control space: no byte of memory, no other tile or group and no register outside the load's own changes; a lane whose address lies in the
tile's own scratchpad has its registers loaded; an inactive lane keeps its registers; with .ACQ the group then waits for its acquire, without it does
not wait. Marks .REL and .FIN, or a size that does not exist, fault with ILLEGAL_INSTR; a failed check faults with its code at the lowest failing
address. (spec/07_tile_local_array.md; spec/03_thread_groups.md; spec/10_memory_model.md) -/
def Obligations.LoadsIssue : Prop :=
  ∀ (s : State) (t : TileId) (g : GroupId) (size : Nat) (sx : Bool) (m : Marks) (vd va : Nat), s.live →
    (sizeOk size sx = true → m.rel = false → m.fin = false → s.part.Ready t g ([va, va + 1] ++ dataRegs vd size) [va, va + 1] →
      s.part.loadBlocked t (s.part.places t g va) size = false →
      (s.part.checkLanes t g .load size va = none → (s.part.group t g).tx = none → noControl (s.part.places t g va) →
        s.gives (.ld t g size sx m vd va) (fun q => s.part.OnTile q t g ∧ (q.group t g).wait = (if m.acq then .acquire else .none) ∧
          (∀ l o i, (l, Place.scratch o) ∈ s.part.places t g va → i < (size + 3) / 4 →
            (q.group t g).rg (vd + i) l = loadWord size sx ((s.part.tile t).arrBytes o size) i) ∧
          (∀ r l, l < 32 → r ∉ dataRegs vd size ∨ (s.part.group t g).act.getLsbD l = false → (q.group t g).rg r l = (s.part.group t g).rg r l))) ∧
      (∀ f, s.part.checkLanes t g .load size va = some f → s.gives (.ld t g size sx m vd va) (fun q => s.part.TookFault q t g f.code f.addr))) ∧
    (s.part.Ready t g [] [] → sizeOk size sx = false ∨ m.rel = true ∨ m.fin = true →
      s.gives (.ld t g size sx m vd va) (fun q => s.part.TookFault q t g 0x01 0))

/-- For every live part and ready group with no transaction open, and a store of any size whose lanes pass the checks, name no control space and find
room: no byte of memory and no register changes; the store buffer gains, in order, one entry for each distinct sector, of this group, with the device,
the sector and the bytes its lanes give, numbered from the next number, ready to drain unless the store is a release (.REL, or .FIN with a lane that
is not remote), in which case the group waits in that release. .ACQ or a size that does not exist faults with ILLEGAL_INSTR; a failed check faults
with its code. (spec/07_tile_local_array.md; spec/03_thread_groups.md; spec/10_memory_model.md) -/
def Obligations.StoresEnterStoreBuffer : Prop :=
  ∀ (s : State) (t : TileId) (g : GroupId) (size : Nat) (m : Marks) (va vs : Nat), s.live →
    (sizeOk size false = true → m.acq = false → s.part.Ready t g ([va, va + 1] ++ dataRegs vs size) ([va, va + 1] ++ dataRegs vs size) →
      (s.part.group t g).tx = none → (s.part.tile t).sbRoom (sectorsOf (s.part.places t g va)).length = true →
      (s.part.checkLanes t g .store size va = none → noControl (s.part.places t g va) →
        let ls := s.part.places t g va
        let rel := finActsRel m ls
        s.gives (.st t g size m va vs) (fun q => s.part.OnTile q t g ∧ (∀ r l, (q.group t g).rg r l = (s.part.group t g).rg r l) ∧
          (q.tile t).sb = (s.part.tile t).sb ++ (sectorsOf ls).mapIdx (fun i c =>
            ({ id := s.part.nextId + i, group := g.val, sector := c.2, dev := c.1, kind := .store, marked := rel, ready := !rel, fin := m.fin && c.1.isSome,
               sent := false, sid := (s.part.group t g).sid,
               bytes := mergeLanes (fun o => s.part.freeByte (memPlace c.1 (c.2 + o)))
                 ((lanesIn ls c.1 c.2).map fun x => (x.2 % 64, (s.part.group t g).storeBytes vs size x.1)) } : SbEntry)) ∧
          (rel = false → (q.group t g).wait = .none) ∧
          (rel = true → ∃ r, (q.group t g).wait = .release r ∧ r.op = .store ((List.range (sectorsOf ls).length).map (s.part.nextId + ·)) ∧
            r.since = s.part.nextId))) ∧
      (∀ f, s.part.checkLanes t g .store size va = some f → s.gives (.st t g size m va vs) (fun q => s.part.TookFault q t g f.code f.addr))) ∧
    (s.part.Ready t g [] [] → sizeOk size false = false ∨ m.acq = true → s.gives (.st t g size m va vs) (fun q => s.part.TookFault q t g 0x01 0))

/-- For every live part and ready group with no transaction open whose lanes pass the checks of an atomic: ATOM, ATOM.CAS, LDRSV and STCND (waiting for
store-buffer entries of their sectors) change no register outside their result, no byte of memory, no other tile or group, and leave in flight, after
every request there was, a request of the group for each distinct sector, numbered past every earlier one; RED adds one entry for each sector and
RED.SEC two, of reduction kind, to the store buffer and changes no register. A type the operation does not have, and a mark it does not take, fault
with ILLEGAL_INSTR. (spec/09_atomics_transactions.md; spec/10_memory_model.md; spec/07_tile_local_array.md) -/
def Obligations.AtomicsIssue : Prop :=
  ∀ (s : State) (t : TileId) (g : GroupId) (op : AtomOp) (ty : AtomTy) (m : Marks) (vd va vs vc : Nat) (wide : Bool), s.live →
    let n := atomSize ty
    let w := if wide then 8 else 4
    let ls := s.part.places t g va
    let sent (dn : Nat) (q : Part) : Prop := s.part.OnTile q t g ∧
      (∀ r l, l < 32 → r ∉ dataRegs vd dn ∨ (s.part.group t g).act.getLsbD l = false → (q.group t g).rg r l = (s.part.group t g).rg r l) ∧
      ∀ c ∈ sectorsOf ls, ∃ x ∈ q.net, x.tile = t.val ∧ x.group = g.val ∧ x.dev = c.1 ∧ x.sector = c.2 ∧ s.part.nextId ≤ x.id ∧ x.id < q.nextId
    ((s.part.group t g).tx = none → s.part.sbFree t ls = true →
      (s.part.checkLanes t g .atomic n va = none →
        (atomDefined op ty = true → m.fin = false → s.part.Ready t g ([va, va + 1] ++ elemRegs vs n ++ dataRegs vd n) ([va, va + 1] ++ elemRegs vs n) →
          s.gives (.atom t g op ty m vd va vs) (sent n)) ∧
        (ty = .b32 ∨ ty = .b64 → m.fin = false →
          s.part.Ready t g ([va, va + 1] ++ (elemRegs vs n ++ elemRegs vc n) ++ dataRegs vd n) ([va, va + 1] ++ (elemRegs vs n ++ elemRegs vc n)) →
          s.gives (.atomCas t g ty m vd va vs vc) (sent n))) ∧
      (s.part.checkLanes t g .atomic w va = none →
        (m.rel = false → m.fin = false → s.part.Ready t g ([va, va + 1] ++ [] ++ dataRegs vd w) ([va, va + 1] ++ []) →
          s.gives (.ldrsv t g wide m vd va) (sent w)) ∧
        (m.acq = false → m.fin = false → s.part.Ready t g ([va, va + 1] ++ elemRegs vs w ++ dataRegs vd 4) ([va, va + 1] ++ elemRegs vs w) →
          s.gives (.stcnd t g wide m vd va vs) (sent 4)))) ∧
    ((s.part.group t g).tx = none → m.acq = false →
      (atomDefined op ty = true → s.part.checkLanes t g .atomic n va = none → (s.part.tile t).sbRoom (sectorsOf ls).length = true →
        s.part.Ready t g ([va, va + 1] ++ elemRegs vs n) ([va, va + 1] ++ elemRegs vs n) →
        s.gives (.red t g op ty m va vs) (fun q => s.part.OnTile q t g ∧ (∀ r l, (q.group t g).rg r l = (s.part.group t g).rg r l) ∧
          ∃ es, (q.tile t).sb = (s.part.tile t).sb ++ es ∧ es.map (fun e => (e.dev, e.sector)) = sectorsOf ls ∧
            ∀ e ∈ es, e.group = g.val ∧ ∃ lanes, e.kind = .red op ty lanes)) ∧
      (ty ∈ [.f32, .i32, .bf16] → (s.part.tile t).sbRoom 2 = true → s.part.Ready t g [va, va + 1, vs] [va, va + 1, vs] →
        ∀ (d : Option Nat) (a : Nat), let b := (s.part.group t g).pair va (s.part.group t g).lowLane
        b.toNat % 128 = 0 → s.part.laneCheck t g .atomic 128 b = 0 → s.part.place b = .mem d a →
        s.gives (.redSec t g .add ty m va vs) (fun q => s.part.OnTile q t g ∧ (∀ r l, (q.group t g).rg r l = (s.part.group t g).rg r l) ∧
          ∃ es, (q.tile t).sb = (s.part.tile t).sb ++ es ∧ es.map (fun e => (e.dev, e.sector)) = [(d, a), (d, a + 64)] ∧
            ∀ e ∈ es, e.group = g.val ∧ ∃ lanes, e.kind = .red .add ty lanes))) ∧
    (s.part.Ready t g [] [] → (atomDefined op ty = false ∨ m.fin = true → s.gives (.atom t g op ty m vd va vs) (fun q => s.part.TookFault q t g 0x01 0)) ∧
      (m.fin = true → s.gives (.atomCas t g ty m vd va vs vc) (fun q => s.part.TookFault q t g 0x01 0)) ∧
      (m.rel = true ∨ m.fin = true → s.gives (.ldrsv t g wide m vd va) (fun q => s.part.TookFault q t g 0x01 0)) ∧
      (m.acq = true ∨ m.fin = true → s.gives (.stcnd t g wide m vd va vs) (fun q => s.part.TookFault q t g 0x01 0)) ∧
      (atomDefined op ty = false ∨ m.acq = true → s.gives (.red t g op ty m va vs) (fun q => s.part.TookFault q t g 0x01 0)))

/-- For every live part and ready group. MMA.ISSUE with a free token record and fewer than four operations in flight appends an operation with the 128
bytes at the offset in vd of the lowest active lane, makes the record outstanding under the next generation and writes its token to vt of the active
lanes; with no free record it faults with code 0x4F. MMA.WAIT on a posted token of code 0 (or one no wait takes as a fault) frees the record and goes
on, on another code it frees the record and faults with that code; MMA.WAIT.ST writes the code to vs and never faults on it; a value that is no token
of the group faults with 0x4E; a wait on a token not yet posted changes nothing. MMA.WAITALL with none outstanding frees every record and goes on, or
faults where one holds an error. (spec/04_matrix_unit.md; spec/03_thread_groups.md) -/
def Obligations.MatrixIssueAndWait : Prop :=
  ∀ (s : State) (t : TileId) (g : GroupId) (vt vd vs r c : Nat) (k : Token), s.live →
    let y := s.part.group t g
    (s.part.Ready t g [vt, vd] [vd] → (s.part.tile t).ops.length < 4 →
      (y.freeRecord = some r → y.tx = none →
        s.gives (.mmaIssue t g vt vd) (fun q => s.part.OnTile q t g ∧
          (q.tile t).ops = (s.part.tile t).ops ++ [{ group := g, record := r, gen := y.tokenGen, base := (y.rg vd y.lowLane).toNat, desc := (s.part.tile t).arrBytes (y.rg vd y.lowLane).toNat 128 }] ∧
          (q.group t g).token r = some { gen := y.tokenGen } ∧ (q.group t g).tokenGen = y.tokenGen + 1 ∧
          (∀ l, l < 32 → y.act.getLsbD l = true → (q.group t g).rg vt l = tokenWord g r y.tokenGen) ∧
          (∀ v l, l < 32 → v ≠ vt ∨ y.act.getLsbD l = false → (q.group t g).rg v l = y.rg v l))) ∧
      (y.freeRecord = none → s.gives (.mmaIssue t g vt vd) (fun q => s.part.TookFault q t g 0x4F 0))) ∧
    (s.part.Ready t g [vt] [vt] →
      (y.tokenOf g (y.rg vt y.lowLane) = none → s.gives (.mmaWait t g vt) (fun q => s.part.TookFault q t g 0x4E 0)) ∧
      (y.tokenOf g (y.rg vt y.lowLane) = some (r, k) →
        (k.code = none → s.gives (.mmaWait t g vt) (fun q => q = s.part)) ∧
        (k.code = some c → c = 0 ∨ k.soft = true → s.gives (.mmaWait t g vt) (fun q => s.part.OnlyGroup q t g ∧
          (q.group t g).tokens = mdel y.tokens r ∧ (q.group t g).regs = y.regs)) ∧
        (k.code = some c → c ≠ 0 → k.soft = false → s.gives (.mmaWait t g vt) (fun q => (q.tile t).faulted = true ∧
          (q.group t g).tokens = mdel y.tokens r ∧ (s.part.rd TL_EVENTS_FAULT t = 0 → q.rd TL_FAULT_CODE t = c % 65536))))) ∧
    (s.part.Ready t g [vt, vs] [vt] →
      (y.tokenOf g (y.rg vt y.lowLane) = none → s.gives (.mmaWaitSt t g vs vt) (fun q => s.part.TookFault q t g 0x4E 0)) ∧
      (y.tokenOf g (y.rg vt y.lowLane) = some (r, k) → k.code = some c → s.gives (.mmaWaitSt t g vs vt) (fun q => s.part.OnlyGroup q t g ∧
        (q.group t g).tokens = mdel y.tokens r ∧
        (∀ l, l < 32 → y.act.getLsbD l = true → (q.group t g).rg vs l = BitVec.ofNat 32 c) ∧
        (∀ v l, l < 32 → v ≠ vs ∨ y.act.getLsbD l = false → (q.group t g).rg v l = y.rg v l)))) ∧
    (s.part.Ready t g [] [] → y.outstanding = false →
      (y.firstError = none → s.gives (.mmaWaitAll t g) (fun q => s.part.OnlyGroup q t g ∧ (q.group t g).tokens = [] ∧ (q.group t g).regs = y.regs)) ∧
      (y.firstError = some c → s.gives (.mmaWaitAll t g) (fun q => (q.tile t).faulted = true ∧ (q.group t g).tokens = [] ∧
        (s.part.rd TL_EVENTS_FAULT t = 0 → q.rd TL_FAULT_CODE t = c % 65536))))

/-- For every live part and tile. DESCRIPTOR_COPY: the oldest operation not yet checked goes on to stage 3 when its checks give no code, and otherwise is
done with the code, of which a descriptor not at a multiple of 128 always gives 0x40. MMA_TRANSLATION of an operation with both operands LOCAL stages
it at once (or ends it with 0x4B where its sparsity metadata is not valid). MAP_READ_RETURN of a header without a mark holds the header.
STAGING_DATA_RETURN takes the oldest outstanding sector and writes its bytes, at the cells R212 gives, to the local array. ARRAY_START starts the
oldest operation once it is staged. Other tiles and, but for the reads, every other unit are unchanged. For every live part and tile whose oldest
operation is running, its C region inside the 128 columns: every element (i, j) of C takes the value the array computes from the stored elements of A
and B and, in accumulate mode, its old value (0 otherwise), or the pattern 0x80000000 or 0x7FC00000 where an operand was poisoned; every accumulator
element outside C keeps its value; the operation leaves the list; its token, where its generation is still the outstanding one, holds the code (0x4C
where poisoned). An operation that failed a check completes with its code and writes no element. (spec/04_matrix_unit.md; spec/05_number_formats.md) -/
def Obligations.MatrixOperations : Prop :=
  (
  ∀ (s : State) (t : TileId) (pre rest : List MmaOp) (o : MmaOp), s.live → (s.part.tile t).ops = pre ++ o :: rest →
    let d := decDesc o.desc
    ((∀ x ∈ pre, x.stage ≠ .issued) → o.stage = .issued →
      let code := s.part.descCode t o (pre.filter fun x => x.stage ≠ .done)
      (o.base % 128 ≠ 0 → code = 0x40) ∧
      (code = 0 → s.gives (.descriptorCopy t) (fun q => s.part.OnlyTile q t ∧ (q.tile t).ops = pre ++ { o with stage := .copied } :: rest)) ∧
      (code ≠ 0 → s.gives (.descriptorCopy t) (fun q => s.part.OnlyTile q t ∧
        (q.tile t).ops = pre ++ { o with code := code, soft := false, stage := .done, mapReads := [], toStage := [] } :: rest))) ∧
    ((∀ x ∈ pre, x.stage ≠ .issued ∧ x.stage ≠ .copied) → o.stage = .copied → o.mapReads = [] → d.a.src = 0 → d.b.src = 0 →
      (s.part.metaOk t d = true → s.gives (.mmaTranslation t) (fun q => s.part.OnlyTile q t ∧
        (q.tile t).ops = pre ++ { o with stage := .staged, toStage := [] } :: rest)) ∧
      (s.part.metaOk t d = false → s.gives (.mmaTranslation t) (fun q => s.part.OnlyTile q t ∧
        (q.tile t).ops = pre ++ { o with code := 0x4B, soft := false, stage := .done, mapReads := [], toStage := [] } :: rest))) ∧
    (∀ (a : Nat) (more : List (Bool × Nat)) (err : EccErr), (∀ x ∈ pre, x.mapReads = []) → o.mapReads = (true, a) :: more →
      let r := s.part.readSector a (s.part.meets a err (s.part.tileOwner t))
      r.2.2 = none → s.gives (.mapReadReturn t err) (fun q => (q.tile t).ops = pre ++ { o with mapReads := [] } :: rest ∧
        ∃ w, (q.tile t).headers.getLast? = some (a, w) ∧
          getB w 0 63 = getB (BitVec.ofNat 64 (leAt r.2.1 0 8)) 0 63)) ∧
    (∀ (isB : Bool) (sec : Nat) (more : List (Bool × Nat)) (err : EccErr), (∀ x ∈ pre, x.stage ≠ .translated) → o.stage = .translated → o.toStage = (isB, sec) :: more →
      let r := s.part.readSector (o.addr d isB sec) (s.part.meets (o.addr d isB sec) err (s.part.tileOwner t))
      more ≠ [] → r.2.2 = none → s.gives (.stagingDataReturn t err) (fun q => (q.tile t).ops = pre ++ { o with toStage := more } :: rest ∧
        (q.tile t).arr = ((s.part.tile t).arrPut ((d.operand isB).stageCells (if isB then d.n else d.m) (if isB then d.k else d.ka) sec
          r.2.1)).arr)) ∧
    (pre = [] → o.stage = .staged → s.gives (.arrayStart t) (fun q => s.part.OnlyTile q t ∧ (q.tile t).ops = { o with stage := .running } :: rest))) ∧
  (
  ∀ (s : State) (t : TileId) (o : MmaOp) (rest : List MmaOp) (k : Token), s.live → (s.part.tile t).ops = o :: rest →
    let d := decDesc o.desc
    let bad := o.poisonMem || o.poisonPaged
    let w := ((pairInfo d.a.fmt d.b.fmt).map (·.w)).getD 0
    ((s.part.group t o.group).token o.record = some k → k.gen = o.gen → o.stage = .running ∨ o.stage = .done →
      s.gives (.mmaComplete t) (fun q => (q.tile t).ops = rest ∧ ∃ k', (q.group t o.group).token o.record = some k' ∧ k'.gen = k.gen ∧
        k'.code = some (if o.stage = .running ∧ bad = true then 0x4C else o.code))) ∧
    (o.stage = .running → d.accCol + d.n ≤ 128 → s.gives (.mmaComplete t) (fun q => s.part.OnTile q t o.group ∧ (q.tile t).arr = (s.part.tile t).arr ∧
      (q.group t o.group).regs = (s.part.group t o.group).regs ∧
      (∀ i j, i < d.m → j < d.n → mget 0 (q.tile t).acc (d.accIdx i j) =
        if bad = true then (if d.int32 = true then 0x80000000 else 0x7FC00000)
        else ((s.part.tile t).element d w i j (if d.accMode = true then mget 0 (s.part.tile t).acc (d.accIdx i j) else 0)).1) ∧
      (∀ n, (∀ i j, i < d.m → j < d.n → n ≠ d.accIdx i j) → mget 0 (q.tile t).acc n = mget 0 (s.part.tile t).acc n))) ∧
    (o.stage = .done → s.gives (.mmaComplete t) (fun q => s.part.OnTile q t o.group ∧ (q.tile t).acc = (s.part.tile t).acc)))

/-- For every live part and ready group with no element of an operation in flight named: LD.ACC writes each active lane's element to vd; ST.ACC writes
each element that active lanes give one value and leaves every element no active lane names; an index past 16,383 faults with ADDR_RANGE at the lowest
one. DISCARD, its checks passed and with room, adds one entry of its kind for each distinct line to the store buffer; PREFETCH sends hints and changes
no byte, register value, local array or store buffer. CONTROL_SPACE_ACCESS: a 32-bit lane store at an address of control space writes its register, a
load reads it. (spec/07_tile_local_array.md; spec/08_shared_cache.md; spec/04_matrix_unit.md) -/
def Obligations.AccumulatorAndHintInstructions : Prop :=
  ∀ (s : State) (t : TileId) (g : GroupId) (va vd vs : Nat), s.live →
    let y := s.part.group t g
    (s.part.accFree t g va = true → s.part.Ready t g [vd, va] [va] →
      (s.part.accFault t g va = none → s.gives (.ldAcc t g vd va) (fun q => s.part.OnTile q t g ∧ (q.tile t).acc = (s.part.tile t).acc ∧
        (∀ l, l < 32 → y.act.getLsbD l = true → (q.group t g).rg vd l = mget 0 (s.part.tile t).acc (y.rg va l).toNat) ∧
        (∀ v l, l < 32 → v ≠ vd ∨ y.act.getLsbD l = false → (q.group t g).rg v l = y.rg v l))) ∧
      (∀ f, s.part.accFault t g va = some f → s.gives (.ldAcc t g vd va) (fun q => s.part.TookFault q t g 0x04 f.addr))) ∧
    (s.part.accFree t g va = true → s.part.Ready t g [va, vs] [va, vs] →
      (s.part.accFault t g va = none → s.gives (.stAcc t g va vs) (fun q => s.part.OnTile q t g ∧ (∀ v l, (q.group t g).rg v l = y.rg v l) ∧
        (∀ l, l < 32 → y.act.getLsbD l = true → (∀ k, k < 32 → y.act.getLsbD k = true → y.rg va k = y.rg va l → y.rg vs k = y.rg vs l) →
          mget 0 (q.tile t).acc (y.rg va l).toNat = y.rg vs l) ∧
        (∀ n, (∀ l, l < 32 → y.act.getLsbD l = true → n ≠ (y.rg va l).toNat) → mget 0 (q.tile t).acc n = mget 0 (s.part.tile t).acc n))) ∧
      (∀ f, s.part.accFault t g va = some f → s.gives (.stAcc t g va vs) (fun q => s.part.TookFault q t g 0x04 f.addr))) ∧
    (s.part.Ready t g [va, va + 1] [va, va + 1] → y.tx = none →
      ((s.part.tile t).sbRoom (memLines (s.part.places t g va)).length = true → s.part.checkLanes t g .discard 256 va = none →
        s.gives (.discard t g va) (fun q => s.part.OnTile q t g ∧ (∀ v l, (q.group t g).rg v l = y.rg v l) ∧
          (q.tile t).sb.map (fun e => (e.sector, e.kind)) = (s.part.tile t).sb.map (fun e => (e.sector, e.kind)) ++
            (memLines (s.part.places t g va)).map fun l => (l, SbKind.discard))) ∧
      s.gives (.prefetch t g va) (fun q => s.part.OnTile q t g ∧ (∀ v l, (q.group t g).rg v l = y.rg v l) ∧ (q.tile t).arr = (s.part.tile t).arr ∧
        (q.tile t).sb = (s.part.tile t).sb)) ∧
    (∀ (wide : Bool) (l o : Nat) (v : W64) (p : Part), let n := if wide then 8 else 4
      l < 32 → s.part.places t g va = [(l, .control o)] → y.tx = none →
      (s.part.Ready t g ([va, va + 1] ++ dataRegs vd n) [va, va + 1] → s.part.checkLanes t g .load n va = none →
        ((s.part.inc TL_ISSUE_ISSUED 1 t).inc TL_SECTORS_CYCLES 1 t).csRead o n = some (v, p) → s.gives (.controlSpaceAccess t g false wide vd va) (fun q =>
          (q.group t g).rg vd l = v.setWidth 32 ∧ (wide = true → (q.group t g).rg (vd + 1) l = (v >>> 32).setWidth 32))) ∧
      (s.part.Ready t g ([va, va + 1] ++ dataRegs vd n) ([va, va + 1] ++ dataRegs vd n) → s.part.checkLanes t g .store n va = none →
        ((s.part.inc TL_ISSUE_ISSUED 1 t).inc TL_SECTORS_CYCLES 1 t).csWrite o n (BitVec.ofNat 64 (leNat (y.storeBytes vd n l))) = some p →
        s.gives (.controlSpaceAccess t g true wide vd va) (fun q => ∀ r i j, r.key i j ≠ reg_TL_COUNTS.key t 0 → q.reg r i j = p.reg r i j)))

/-- For every live part and ready group of a tile that runs the step program, with no transaction and no MESH.READY outstanding where one matters:
MESH.STREAM at an aligned offset inside the scratchpad stages the descriptor its 16 bytes give, or records MESH_STREAM_BAD and the step has faulted;
MESH.READY counts the tile ready once more; CTR.RD writes the counter; CTR.WAIT with a target within the largest value waits exactly when the counter
has not reached it, and past it faults with CTR_RANGE; CONSUME sets the consumption range. Where the tile does not run the step program each faults
with ILLEGAL_INSTR. (spec/06_static_mesh.md; spec/07_tile_local_array.md; spec/12_hbm.md) -/
def Obligations.MeshStreamsAndCounters : Prop :=
  ∀ (s : State) (t : TileId) (g : GroupId) (vd vs vc n : Nat) (dir : CtrDir), s.live →
    let y := s.part.group t g
    let x := s.part.tile t
    let v := (y.rg vs y.lowLane).toNat
    let o := y.offset vs y.lowLane
    (s.part.tileStep t = true → y.tx = none →
      (s.part.Ready t g [vs] [vs] → s.part.readyFree t = true →
        (o % 16 = 0 → o + 16 ≤ s.part.scratch t →
          (∀ k d, decStream (x.arrBytes o 16) (s.part.scratch t) = some (k, d) → s.gives (.meshStream t g vs) (fun q => s.part.OnTile q t g ∧
            (q.tile t).stagedStreams = mins x.stagedStreams k d ∧ (q.tile t).streams = x.streams ∧ (q.group t g).regs = y.regs)) ∧
          (decStream (x.arrBytes o 16) (s.part.scratch t) = none → s.part.rd TL_MESH_FAULT_VALID t = 0 → s.gives (.meshStream t g vs) (fun q =>
            q.step.faulted = true ∧ q.rd TL_MESH_FAULT_CODE t = 0x20 ∧ q.rd TL_MESH_FAULT_VALID t = 1 ∧ (q.tile t).stagedStreams = x.stagedStreams ∧
            (q.tile t).faulted = x.faulted))) ∧
        (o % 16 ≠ 0 → s.gives (.meshStream t g vs) (fun q => s.part.TookFault q t g 0x03 (arrBase + 0x80000 * t.val + o)))) ∧
      (s.part.Ready t g [] [] → s.part.readyFree t = true → s.gives (.meshReady t g) (fun q => s.part.OnTile q t g ∧ (q.tile t).ready = x.ready + 1 ∧
        (q.tile t).readyOut = true ∧ (q.group t g).regs = y.regs)) ∧
      (ctrDefined dir n = true → s.part.Ready t g [vd] [] → s.gives (.ctrRd t g vd dir n) (fun q =>
        s.part.Wrote q t g vd fun _ => BitVec.ofNat 32 (x.counter dir n))) ∧
      (ctrDefined dir n = true → s.part.Ready t g [vs] [vs] →
        (v ≤ x.counterMax dir n → s.gives (.ctrWait t g dir n vs) (fun q => s.part.OnlyGroup q t g ∧ (q.group t g).regs = y.regs ∧
          (q.group t g).wait = if v ≤ x.counter dir n then .none else .counter dir n v)) ∧
        (x.counterMax dir n < v → s.gives (.ctrWait t g dir n vs) (fun q => s.part.TookFault q t g 0x0C 0))) ∧
      (s.part.Ready t g [vs, vc] [vs, vc] → s.gives (.consume t g vs vc) (fun q => s.part.OnTile q t g ∧
        (q.tile t).consumer = some (v, (y.rg vc y.lowLane).toNat) ∧ (q.group t g).regs = y.regs))) ∧
    (s.part.tileStep t = false →
      (s.part.Ready t g [vs] [vs] → s.part.readyFree t = true → s.gives (.meshStream t g vs) (fun q => s.part.TookFault q t g 0x01 0)) ∧
      (s.part.Ready t g [] [] → s.part.readyFree t = true → s.gives (.meshReady t g) (fun q => s.part.TookFault q t g 0x01 0)) ∧
      (s.part.Ready t g [vd] [] → ctrDefined dir n = true → s.gives (.ctrRd t g vd dir n) (fun q => s.part.TookFault q t g 0x01 0)) ∧
      (s.part.Ready t g [vs] [vs] → ctrDefined dir n = true → s.gives (.ctrWait t g dir n vs) (fun q => s.part.TookFault q t g 0x01 0)) ∧
      (s.part.Ready t g [vs, vc] [vs, vc] → s.gives (.consume t g vs vc) (fun q => s.part.TookFault q t g 0x01 0)))

/-- For every live part. GATE_OPEN, when its conditions hold, counts the gate and takes the staged descriptors of every tile for it. GATE_LEAVE with no
flit in flight takes every router at a gate slot to its next slot in one and the same mesh cycle, at least 48 later, activates the descriptors, and
leaves the other routers as they were. ROUTER_SLOT of a running router inside a ROUTE slot runs one mesh cycle of it: its cycle count and slot
advance, and a flit that an output copies from a port arrives at the neighbour of that output with its data, after the latency of the link. A router
whose next slot is GATE or END stops there. (spec/06_static_mesh.md) -/
def Obligations.GatesAndRouterSlots : Prop :=
  ∀ (s : State), s.live →
    (s.part.gateReady = true → s.gives .gateOpen (fun q => q.step = { s.part.step with gates := s.part.step.gates + 1, opening := true } ∧
      (∀ t, (q.tile t).stagedStreams = [] ∧ (q.tile t).readyOut = decide (s.part.step.gates + 1 < (s.part.tile t).ready) ∧
        (q.tile t).streams = (s.part.tile t).streams ∧ (q.tile t).groups = (s.part.tile t).groups) ∧
      { q with step := {}, tiles := [] } = { s.part with step := {}, tiles := [] })) ∧
    (s.part.step.opening = true → s.part.flits = [] → mwf {} s.part.routers = true → s.gives .gateLeave (fun q => q.step.opening = false ∧
      q.step.gatesLeft = s.part.step.gatesLeft + 1 ∧ (∀ t, (q.tile t).openStreams = []) ∧ ∃ c, ∀ t,
        ((s.part.router t).state ≠ .gate → q.router t = s.part.router t) ∧
        ((s.part.router t).state = .gate → (s.part.router t).cycle + 48 ≤ c ∧
          q.router t = { s.part.router t with state := .running, slot := (s.part.router t).slot + 1, left := 0, cycle := c }))) ∧
    (∀ (t : TileId) (w : W64), let x := s.part.router t
      x.state = .running → s.part.fedBy t = true →
      (x.left ≠ 0 → x.cur = some w → s.gives (.routerSlot t .ok none) (fun q =>
        (q.router t).cycle = x.cycle + 1 ∧ (q.router t).left = x.left - 1 ∧ (q.router t).slot = (if x.left = 1 then x.slot + 1 else x.slot) ∧
        (∀ n, n ≠ t.val → q.router n = s.part.router n) ∧
        ∀ (o i n port l : Nat) (f : MeshFlit), o < 4 → i < 4 → routeField w o = (i + 1, 0) → meshLink t o = some (n, port, l) →
          f ∈ s.part.flits → f.dest = t.val → f.cycle = x.cycle → f.port = i →
          (∀ f' ∈ s.part.flits, f'.dest = t.val → f'.cycle = x.cycle → f'.port = i → f' = f) →
          ({ dest := n, port := port, cycle := x.cycle + l, poison := f.poison, data := f.data } : MeshFlit) ∈ q.flits)) ∧
      (x.left = 0 → slotKind (x.bank.getD x.slot 3) = 1 → s.gives (.routerSlot t .ok none) (fun q =>
        (q.router t).state = .gate ∧ (q.router t).slot = x.slot ∧ (q.router t).cycle = x.cycle)) ∧
      (x.left = 0 → slotKind (x.bank.getD x.slot 3) = 3 → s.gives (.routerSlot t .ok none) (fun q =>
        (q.router t).state = .ended ∧ (q.router t).slot = x.slot ∧ (q.router t).cycle = x.cycle)))

/-- For every live part. TXBEGIN of a ready group with none open, fewer than four open on the tile, opens one with its target, mask and abort register, no
line and no buffered byte; inside one it aborts with code 7. TXCOMMIT with the mask of TXBEGIN ends a transaction that claimed no line and otherwise
waits for its claims; with another mask it aborts with code 8; TXABORT aborts with code 14 and its argument; both fault with code 0x62 where none is
open. TX_ABORT_NOTICE delivers a notice that the tile has learned, and TX_TIMEOUT aborts with code 9 a transaction whose TXCOMMIT has not issued. An
abort restarts the threads of TXBEGIN at the target with the abort word and changes no byte of memory. (spec/09_atomics_transactions.md) -/
def Obligations.TransactionsAtTheTile : Prop :=
  ∀ (s : State) (t : TileId) (g : GroupId) (vd : Nat) (target : Pc) (imm : BitVec 8) (x : Tx) (code line : Nat), s.live →
    let y := s.part.group t g
    (s.part.Ready t g [vd] [] → (s.part.tile t).openTx < 4 →
      (y.tx = none → s.gives (.txBegin t g vd target) (fun q => s.part.OnlyGroup q t g ∧ (q.group t g).regs = y.regs ∧
        (q.group t g).tx = some { target := target, mask := y.act, vd := vd, split := y.path.split, firstId := y.nextId })) ∧
      (y.tx = some x → s.gives (.txBegin t g vd target) (fun q => s.part.TxAborted q t g x 7))) ∧
    (s.part.Ready t g [] [] →
      (y.tx = none → s.gives (.txCommit t g) (fun q => s.part.TookFault q t g 0x62 0) ∧ s.gives (.txAbort t g imm) (fun q => s.part.TookFault q t g 0x62 0)) ∧
      (y.tx = some x →
        (y.act = x.mask → x.lines = [] → s.gives (.txCommit t g) (fun q => s.part.OnTile q t g ∧ (q.group t g).tx = none ∧ (q.group t g).regs = y.regs)) ∧
        (y.act = x.mask → x.lines ≠ [] → s.gives (.txCommit t g) (fun q => s.part.OnTile q t g ∧ (q.group t g).tx = some { x with commit := true } ∧
          (q.group t g).wait = .txCommit ∧ (q.group t g).regs = y.regs)) ∧
        (y.act ≠ x.mask → s.gives (.txCommit t g) (fun q => s.part.TxAborted q t g x 8)) ∧
        s.gives (.txAbort t g imm) (fun q => s.part.TxAborted q t g x (BitVec.ofNat 32 (14 + 256 * imm.toNat))))) ∧
    (y.tx = some x →
      (x.notice = some (code, line) → y.atBoundary = true → s.gives (.txAbortNotice t g) (fun q => s.part.TxAborted q t g x (abortWord code 0 line))) ∧
      (x.commit = false → s.gives (.txTimeout t g) (fun q => s.part.TxAborted q t g x 9)))

/-- For every live part. FENCE.ACQ of a ready group leaves it waiting in an acquire, FENCE.REL and FENCE.AR in a release numbered at its issue; no
register changes. ACQUIRE_COMPLETE with no marked request outstanding leaves L1 empty, each dirty sector sent to its slice first, and the group goes
on. RELEASE_SEND, once everything earlier is done, first writes L1 back, then, the write-backs performed, completes a fence with 0 in its register, or
1 where writes were lost. FENCE_TIMEOUT of a release that still waits for remote acknowledgements completes a fence with 2 and sets the register's
TIMEOUT, and makes a marked store a fault with code 0x0D that is not performed. DEVFENCE issues once everything of its group is done. (spec/10_memory_model.md) -/
def Obligations.FencesAcquiresAndReleases : Prop :=
  ∀ (s : State) (t : TileId) (g : GroupId) (vd : Nat) (r : RelWait) (acq : Bool), s.live →
    let y := s.part.group t g
    (s.part.Ready t g [] [] → s.gives (.fenceAcq t g) (fun q => s.part.OnlyGroup q t g ∧ (q.group t g).regs = y.regs ∧ (q.group t g).wait = .acquire)) ∧
    (s.part.Ready t g [vd] [] →
      s.gives (.fenceRel t g vd) (fun q => s.part.OnlyGroup q t g ∧ (q.group t g).regs = y.regs ∧
        (q.group t g).wait = .release { op := .fence vd false, since := s.part.nextId, pc := y.pc, mask := y.act }) ∧
      s.gives (.fenceAr t g vd) (fun q => s.part.OnlyGroup q t g ∧ (q.group t g).regs = y.regs ∧
        (q.group t g).wait = .release { op := .fence vd true, since := s.part.nextId, pc := y.pc, mask := y.act })) ∧
    (y.wait = .acquire → (∀ x ∈ s.part.net, x.tile = t.val → x.group = g.val → x.acq = false) → s.gives (.acquireComplete t g) (fun q =>
      s.part.OnTile q t g ∧ (q.group t g).wait = .none ∧ (q.group t g).regs = y.regs ∧ (q.tile t).l1 = [] ∧ (q.tile t).l1Data = [] ∧
      (∀ a ∈ (s.part.tile t).dirtySectors, ∃ x ∈ q.net, x.tile = t.val ∧ x.sector = sectorOf a ∧ s.part.nextId ≤ x.id ∧
        x.kind = .store (((s.part.tile t).l1Bytes (sectorOf a) 64).mapIdx fun i b => (sectorOf a + i, b))))) ∧
    (y.wait = .release r → s.part.relDrained t g r = true →
      (r.wb = none → s.gives (.releaseSend t g) (fun q => s.part.OnTile q t g ∧ (q.tile t).dirtySectors = [] ∧ (q.group t g).regs = y.regs ∧
        ∃ n, s.part.nextId ≤ n ∧ (q.group t g).wait = .release { r with wb := some n })) ∧
      (∀ n, r.wb = some n → s.part.wbDone t n = true → r.op = .fence vd acq → s.gives (.releaseSend t g) (fun q =>
        (q.group t g).wait = (if acq = true then .acquire else .none) ∧
        (∀ l, l < 32 → r.mask.getLsbD l = true → (q.group t g).rg vd l = if r.lost = true then 1 else 0) ∧
        (∀ v l, l < 32 → v ≠ vd ∨ r.mask.getLsbD l = false → (q.group t g).rg v l = y.rg v l) ∧ ∀ a, q.byteAt a = s.part.byteAt a))) ∧
    (y.wait = .release r → ((s.part.tile t).relUnacked r).isEmpty = false →
      (r.op = .fence vd acq → s.gives (.fenceTimeout t g) (fun q => q.rd TL_FENCE_TIMEOUT t = 1 ∧ (q.group t g).wait = (if acq = true then .acquire else .none) ∧
        (∀ l, l < 32 → r.mask.getLsbD l = true → (q.group t g).rg vd l = 2))) ∧
      (∀ ids, r.op = .store ids → s.part.rd TL_EVENTS_FAULT t = 0 → s.gives (.fenceTimeout t g) (fun q => q.rd TL_FENCE_TIMEOUT t = 1 ∧ (q.tile t).faulted = true ∧
        q.rd TL_FAULT_CODE t = 0x0D ∧ (∀ e ∈ (q.tile t).sb, e.id ∉ ids) ∧ ∀ a, q.byteAt a = s.part.byteAt a))) ∧
    (s.part.Ready t g [] [] → (s.part.tile t).dirtySectors = [] → s.part.pendingOf t g = false → (∀ e ∈ (s.part.tile t).sb, e.group ≠ g.val) →
      (∀ u ∈ (s.part.tile t).unacked, u.group ≠ g.val) → s.part.wbDone t s.part.nextId = true →
      s.gives (.devfence t g) (fun q => s.part.OnTile q t g ∧ (q.group t g).regs = y.regs ∧ (q.group t g).wait = .none))

/-- For every live part and request in flight whose turn it is. SLICE_READ of a sector the slice holds answers with the 64 bytes stored there, marked when
poisoned, and changes no byte; of a dead line with the mark DEAD_READ in a STRICT window and none elsewhere; of anything else it leaves the request
waiting. SLICE_WRITE of a sector the slice holds (HBM or pinned), not leased by another group, stores exactly its bytes, ends every reservation on the
line and frees the store-buffer entry. SLICE_DISCARD with no miss entry, pin or lease in the way makes the line dead: it reads as zero, nothing else
changes. PREFETCH_HINT takes the hint and counts it; of a line already there it does nothing more. (spec/08_shared_cache.md; spec/09_atomics_transactions.md; spec/10_memory_model.md; spec/12_hbm.md) -/
def Obligations.SliceReadsAndWrites : Prop :=
  ∀ (s : State) (id : Nat) (r : Req), s.live → s.part.Arrives id r →
    let l := lineOf r.sector
    let sl := s.part.served r.sector
    let x := s.part.phys r.sector
    (∀ n sx keep, r.kind = .load n sx keep →
      (s.part.Resident sl l r.sector → s.part.isDead (s.part.phys l) = false → s.part.isDead x = false → s.gives (.sliceRead id .ok) (fun q =>
        q.Answered id (s.part.bytesAt x 64) [] (if s.part.poisoned x = true then some .poison else none) ∧ ∀ a, q.byteAt a = s.part.byteAt a)) ∧
      (s.part.pinLost r.sector = false → s.part.isDead (s.part.phys l) = true → s.part.isDead x = true → s.gives (.sliceRead id .ok) (fun q =>
        q.Answered id (s.part.bytesAt x 64) [] (if ((s.part.winAt r.sector).map s.part.winStrict).getD false = true then some .deadRead else none) ∧
        ∀ a, q.byteAt a = s.part.byteAt a)) ∧
      (s.part.pinLost r.sector = false → s.part.isDead (s.part.phys l) = false → s.part.hit sl r.sector = false →
        s.gives (.sliceRead id .ok) (fun q => q.Waiting id))) ∧
    (∀ bs, r.kind = .store bs → s.part.leasedByOther sl r = false →
      (s.part.Plain l → s.part.Resident sl l r.sector → (∀ c ∈ bs, sectorOf c.1 = sectorOf r.sector) → s.gives (.sliceWrite id) (fun q =>
        s.part.Stored q bs ∧ q.Done id r ∧ ∀ v ∈ (q.slice sl).rsvs, v.line ≠ l)) ∧
      (s.part.Plain l → s.part.inPin l = false → (s.part.slice sl).find l = none → bs.length ≠ 64 → s.gives (.sliceWrite id) (fun q => q.Waiting id))) ∧
    (r.kind = .discard → inCtl l = false → (∀ e ∈ (s.part.slice sl).entries, e.line ≠ l) → (∀ e ∈ (s.part.slice sl).pins, e.line ≠ l) →
      s.part.leasedByOther sl r = false → s.gives (.sliceDiscard id) (fun q => q.isDead l = true ∧ (∀ a, lineOf a = l → q.byteAt a = 0) ∧
        (∀ a, lineOf a ≠ l → q.byteAt a = s.part.byteAt a) ∧ q.Done id r ∧ ∀ v ∈ (q.slice sl).rsvs, v.line ≠ l)) ∧
    (r.kind = .hint → s.gives (.prefetchHint id) (fun q => q.req id = none ∧
      q.rd LLC_PREFETCH_HINTS sl = min (s.part.rd LLC_PREFETCH_HINTS sl + 1) 0xFFFFFFFF ∧
      (((s.part.slice sl).find l).isSome = true → q.slices = s.part.slices ∧ ∀ a, q.byteAt a = s.part.byteAt a)))

/-- For every live part and request of a line its slice holds. SLICE_ATOMIC of a request in its turn queues it under a new pin of the line; at the front
of the pin it is performed: the lanes' operations in order over the sector's bytes, each lane getting the value stored just before, exactly the
sector's bytes stored; a poisoned sector is left as it is and the lanes get the mark. SLICE_RESERVATION answers with the lanes' values and, when the
request names the reserved line, the group holds a reservation of it. SLICE_STCND with the reservation held stores the first lane's value and answers
0 for it and 1 for the others; without it stores nothing and answers 1 for every lane. RESERVATION_GUARD_EXPIRY and LEASE_EXPIRY end the guards and
leases of one line. (spec/09_atomics_transactions.md; spec/08_shared_cache.md) -/
def Obligations.SliceAtomicsAndReservations : Prop :=
  ∀ (s : State) (id : Nat) (r : Req), s.live → s.part.req id = some r →
    let l := lineOf r.sector
    let sl := s.part.served r.sector
    (∀ op ty cas ret, r.kind = .atomic op ty cas ret → s.part.leasedByOther sl r = false → s.part.Plain l → sectorOf r.sector = r.sector →
      (s.part.Arrives id r → s.part.Resident sl l r.sector → (∀ e ∈ (s.part.slice sl).pins, e.line ≠ l ∧ e.set ≠ setOf l) →
        s.gives (.sliceAtomic id) (fun q => q.Waiting id ∧ (∃ e ∈ (q.slice sl).pins, e.line = l ∧ e.queue = [id]) ∧ ∀ a, q.byteAt a = s.part.byteAt a)) ∧
      ((∃ e ∈ (s.part.slice sl).pins, e.line = l ∧ e.queue.head? = some id) →
        (s.part.poisoned r.sector = false → (∀ c ∈ r.lanes, c.addr % 64 + atomSize ty ≤ 64) →
          let out := runLanes op ty cas r.lanes (s.part.bytesAt r.sector 64)
          s.gives (.sliceAtomic id) (fun q => s.part.Stored q (out.1.mapIdx fun i b => (r.sector + i, b)) ∧
            (ret = true → q.Answered id [] out.2 none) ∧ (ret = false → q.Done id r))) ∧
        (s.part.poisoned r.sector = true → s.gives (.sliceAtomic id) (fun q => (∀ a, q.byteAt a = s.part.byteAt a) ∧
          (ret = true → q.Answered id [] [] (some .poison)) ∧ (ret = false → q.Done id r))))) ∧
    (∀ wide holds, r.kind = .ldrsv wide holds → s.part.Arrives id r → s.part.Plain l → s.part.Resident sl l r.sector →
      s.gives (.sliceReservation id) (fun q => (∀ a, q.byteAt a = s.part.byteAt a) ∧
        q.Answered id (s.part.bytesAt r.sector 64) (laneValues (if wide = true then 8 else 4) r (s.part.bytesAt r.sector 64))
          (if s.part.poisoned r.sector = true then some .poison else none) ∧
        (holds = true → ∃ v ∈ (q.slice sl).rsvs, v.tile = r.tile ∧ v.group = r.group ∧ v.line = l))) ∧
    (∀ wide, r.kind = .stcnd wide → s.part.Arrives id r → s.part.leasedByOther sl r = false → s.part.Plain l → s.part.Resident sl l r.sector →
      s.part.poisoned r.sector = false →
      (∀ c rest, r.lanes = c :: rest → sectorOf c.addr = sectorOf r.sector → c.addr % 64 + (if wide = true then 8 else 4) ≤ 64 →
        (∃ v ∈ (s.part.slice sl).rsvs, v.tile = r.tile ∧ v.group = r.group ∧ v.line = l) → s.gives (.sliceStcnd id) (fun q =>
          s.part.Stored q ((leBytes (if wide = true then 8 else 4) c.val.toNat).mapIdx fun i b => (c.addr + i, b)) ∧
          q.Answered id [] (r.lanes.mapIdx fun i k => (k.lane, if i = 0 then 0 else 1)) none ∧
          ∀ v ∈ (q.slice sl).rsvs, ¬ (v.tile = r.tile ∧ v.group = r.group))) ∧
      ((∀ v ∈ (s.part.slice sl).rsvs, ¬ (v.tile = r.tile ∧ v.group = r.group ∧ v.line = l)) → s.gives (.sliceStcnd id) (fun q =>
        (∀ a, q.byteAt a = s.part.byteAt a) ∧ q.Answered id [] (r.lanes.mapIdx fun _ k => (k.lane, 1)) none))) ∧
    s.gives (.reservationGuardExpiry r.sector) (fun q => (∀ v ∈ (q.slice sl).rsvs, v.line = r.sector → v.guarded = false) ∧
      (q.slice sl).rsvs.map (fun v => (v.tile, v.group, v.line)) = (s.part.slice sl).rsvs.map (fun v => (v.tile, v.group, v.line))) ∧
    s.gives (.leaseExpiry r.sector) (fun q => (∀ v ∈ (q.slice sl).leases, v.line ≠ r.sector) ∧
      ∀ v ∈ (s.part.slice sl).leases, v.line ≠ r.sector → v ∈ (q.slice sl).leases)

/-- For every live part. FILL_COMPLETE of a line with a miss entry ends the entry; a waiting read of a line not dead gets the 64 bytes of its sector.
FILL_WAIT_END and MISS_ENTRY_WAIT_END of a read whose line has come answer it and take it off its list; PIN_WAIT_END of an atomic queues it under a
new pin. CLEAN_DONE of a window being destroyed, with no access of it left and no miss entry or pin in its ways, makes the window invalid and ends the
clean. TAG_LOSS takes the way out of use and marks a working slice as one that will be remapped. LLC_LAT_UPDATE writes the measured latencies to the
slice's register. (spec/08_shared_cache.md; spec/09_atomics_transactions.md; spec/18_reliability_repair.md) -/
def Obligations.FillsWaitsCleansAndTagLoss : Prop :=
  ∀ (s : State) (id : Nat) (r : Req) (e : MissEntry), s.live →
    let l := lineOf r.sector
    let sl := s.part.served r.sector
    let x := s.part.phys r.sector
    ((s.part.slice (s.part.served e.line)).entries.find? (fun f => f.line = e.line) = some e → ∀ k : Fin 4,
      s.gives (.fillComplete e.line .ok k) (fun q => ∀ f ∈ (q.slice (s.part.served e.line)).entries, f.line ≠ e.line) ∧
      (e.waiters = [id] → e.way < 16 → s.part.req id = some r → (∃ n sx keep, r.kind = .load n sx keep) → s.part.isDead x = false →
        s.gives (.fillComplete e.line .ok k) (fun q => (∃ m, q.Answered id (s.part.bytesAt x 64) [] m) ∧ ∀ a, q.byteAt a = s.part.byteAt a))) ∧
    (s.part.req id = some r → s.part.Resident sl l r.sector → s.part.isDead (s.part.phys l) = false → s.part.isDead x = false →
      (∀ n sx keep, r.kind = .load n sx keep →
        (id ∈ (s.part.slice sl).waitWay → id ∉ (s.part.slice sl).waitEntry → id ∉ (s.part.slice sl).waitPin → s.gives (.fillWaitEnd id) (fun q =>
          (∃ m, q.Answered id (s.part.bytesAt x 64) [] m) ∧ id ∉ (q.slice sl).waitWay)) ∧
        (id ∈ (s.part.slice sl).waitEntry → id ∉ (s.part.slice sl).waitWay → id ∉ (s.part.slice sl).waitPin → s.gives (.missEntryWaitEnd id) (fun q =>
          (∃ m, q.Answered id (s.part.bytesAt x 64) [] m) ∧ id ∉ (q.slice sl).waitEntry))) ∧
      (∀ op ty cas ret, r.kind = .atomic op ty cas ret → id ∈ (s.part.slice sl).waitPin → id ∉ (s.part.slice sl).waitEntry →
        id ∉ (s.part.slice sl).waitWay → (∀ f ∈ (s.part.slice sl).pins, f.line ≠ l ∧ f.set ≠ setOf l) → s.gives (.pinWaitEnd id) (fun q =>
          (∃ f ∈ (q.slice sl).pins, f.line = l ∧ f.queue = [id]) ∧ id ∉ (q.slice sl).waitPin))) ∧
    (∀ (k : Clean) (w : Nat), s.part.cleans.find? (fun c => c.token = k.token) = some k → k.kind = .destroy w → w < 64 → s.part.accessLeft w = false →
      (∀ i, i < 256 → s.part.cleanHeld i (fun _ n => n = w) = false) → s.gives (.cleanDone k.token) (fun q => q.winValid w = false ∧ w ∉ q.closing ∧
        ∀ c ∈ q.cleans, c.token ≠ k.token)) ∧
    (∀ (z : SliceId) (set : Fin 1024) (way : Fin 16) (now : Nat), ((s.part.slice z).way set way).kind ≠ .off → s.part.rd LLC_STATUS_STATE z ≠ 2 →
      s.gives (.tagLoss z set way now) (fun q => ((q.slice z).way set way).kind = .off ∧ q.rd LLC_STATUS_STATE z ≠ 0 ∧
        (s.part.step.running = true → q.step.faulted = true))) ∧
    (∀ (z : SliceId) (h m x : Nat), s.gives (.llcLatUpdate z h m x) (fun q => q.rd LLC_LAT_MEAN_HIT z = h % 65536 ∧ q.rd LLC_LAT_MEAN_MISS z = m % 65536 ∧
      q.rd LLC_LAT_MAX_MISS z = x % 65536 ∧ (∀ a, q.byteAt a = s.part.byteAt a) ∧ q.slices = s.part.slices))

/-- For every live part. TX_CLAIM of a request in its turn, from a group whose transaction has no notice yet: another transaction's conflicting claim on
the line aborts it with code 1; a poisoned line with 12; a line the slice holds whole, which nobody claims in a way that conflicts, in a set with no
held way left out, is claimed and acknowledged. TX_COMMIT_APPLY of a transaction whose every claim is acknowledged, no line of it leased by another
group and every line in its way, stores exactly its buffered bytes, ends the transaction and counts the commit. (spec/09_atomics_transactions.md) -/
def Obligations.ClaimsAndCommits : Prop :=
  ∀ (s : State) (t : TileId) (g : GroupId) (id : Nat) (r : Req) (x : Tx) (write : Bool), s.live →
    let l := lineOf r.sector
    let sl := s.part.served r.sector
    let z := s.part.slice sl
    let mine (c : Claim) : Bool := c.tile = r.tile && c.group = r.group
    (s.part.Arrives id r → r.kind = .claim write → (s.part.group r.tile r.group).tx = some x → x.notice = none →
      (z.claims.any mine = true ∨ (distinct (z.claims.map fun c => 16 * c.tile + c.group)).length < 32) →
      ((∃ c ∈ z.claims, mine c = false ∧ c.line = l ∧ (write = true ∨ c.write = true)) → s.gives (.txClaim id) (fun q =>
        ((q.group r.tile r.group).tx.bind fun y => y.notice) = some (1, l) ∧ q.req id = none ∧
        (∀ c ∈ (q.slice sl).claims, mine c = false) ∧ ∀ a, q.byteAt a = s.part.byteAt a)) ∧
      ((∀ c ∈ z.claims, mine c = false → c.line = l → write = false ∧ c.write = false) →
        ((∃ a ∈ s.part.poison, lineOf a = s.part.phys l) → s.gives (.txClaim id) (fun q =>
          ((q.group r.tile r.group).tx.bind fun y => y.notice) = some (12, l) ∧ q.req id = none)) ∧
        ((∀ a ∈ s.part.poison, lineOf a ≠ s.part.phys l) → s.part.isDead (s.part.phys l) = false → (∀ e ∈ z.entries, e.line ≠ l) →
          (∃ w, z.find l = some w ∧ (z.way (setOf l) w).valid &&& 15 = 15) → l ∈ z.heldLines (setOf l) → s.gives (.txClaim id) (fun q =>
            (∃ c ∈ (q.slice sl).claims, mine c = true ∧ c.line = l ∧ (write = true → c.write = true)) ∧
            (q.group r.tile r.group).tx = some (x.ack l write) ∧ q.req id = none ∧ ∀ a, q.byteAt a = s.part.byteAt a)))) ∧
    ((s.part.group t g).tx = some x → x.commit = true → x.notice = none → x.lines ≠ [] → (∀ c ∈ x.lines, c.2.2 = true) →
      (∀ c ∈ x.buf, s.part.Plain (lineOf c.1) ∧ ((s.part.slice (s.part.served ((x.lines.map (·.1)).headD 0))).find (lineOf c.1)).isSome = true) →
      (∀ e ∈ (s.part.slice (s.part.served ((x.lines.map (·.1)).headD 0))).leases, ∀ c ∈ x.buf, lineOf c.1 = e.line → e.tile = t.val ∧ e.group = g.val) →
      s.gives (.txCommitApply t g) (fun q => s.part.Stored q x.buf ∧ (q.group t g).tx = none ∧ (q.group t g).wait = .none ∧
        (q.group t g).regs = (s.part.group t g).regs))

/-- For every live part. LOAD_DATA_RETURN of a load that its slice has performed without a mark writes the loaded words to those registers of its lanes
that still wait for it and to no other register, and the request is done; with a mark other than poison those registers carry the mark instead.
STORE_BUFFER_DRAIN of a plain store of this device sends its bytes to the home slice under the next number, the entry marked as sent, or, where L1
holds the sector, writes them there and frees the entry; no byte of memory changes. (spec/07_tile_local_array.md; spec/10_memory_model.md; spec/03_thread_groups.md) -/
def Obligations.LoadDataAndStoreBufferDrain : Prop :=
  ∀ (s : State), s.live →
    (∀ (id n : Nat) (r : Req) (sx keep : Bool), s.part.req id = some r → r.state = .performed → r.kind = .load n sx keep → (∀ c ∈ r.lanes, c.lane < 32) →
      let y := s.part.group r.tile r.group
      (r.mark = none → s.gives (.loadDataReturn id) (fun q => q.req id = none ∧ (∀ a, q.byteAt a = s.part.byteAt a) ∧
        (∀ c ∈ r.lanes, ∀ i, i < (n + 3) / 4 → (∀ c' ∈ r.lanes, c'.lane = c.lane → c' = c) → y.awaits (c.reg + i) c.lane id = true →
          (q.group r.tile r.group).rg (c.reg + i) c.lane = loadWord n sx (r.laneData r.data c) i) ∧
        (∀ v l, l < 32 → y.awaits v l id = false → (q.group r.tile r.group).rg v l = y.rg v l))) ∧
      (∀ m, r.mark = some m → m ≠ .poison → s.gives (.loadDataReturn id) (fun q => q.req id = none ∧ (q.group r.tile r.group).regs = y.regs ∧
        ∀ c ∈ r.lanes, ∀ i, i < (n + 3) / 4 → (∀ c' ∈ r.lanes, c'.lane = c.lane → c' = c) → y.awaits (c.reg + i) c.lane id = true →
          ((q.group r.tile r.group).mark (c.reg + i) c.lane).map (·.1) = some m))) ∧
    (∀ (t : TileId) (e : SbEntry), s.part.nextDrain [] (s.part.tile t).sb = some e → e.dev = none → e.kind = .store →
      let cells := e.bytes.map fun b => (e.sector + b.1, b.2)
      let kept := s.part.cacheable t e.sector && (s.part.tile t).l1Valid e.sector
      (kept = false → s.gives (.storeBufferDrain t) (fun q => (∀ a, q.byteAt a = s.part.byteAt a) ∧
        (∀ c ∈ (q.tile t).sb, c.id = e.id → c.sent = true) ∧ (q.tile t).sb.length = (s.part.tile t).sb.length ∧ q.nextId = s.part.nextId + 1 ∧
        ∃ x ∈ q.net, x.id = s.part.nextId ∧ x.tile = t.val ∧ x.sector = e.sector ∧ x.sb = some e.id ∧ x.kind = .store cells ∧ x.state = .sent)) ∧
      (kept = true → e.marked = false → s.gives (.storeBufferDrain t) (fun q => (∀ a, q.byteAt a = s.part.byteAt a) ∧ q.net = s.part.net ∧
        (∀ c ∈ (q.tile t).sb, c.id ≠ e.id) ∧ (q.tile t).l1Data = ((s.part.tile t).l1Put cells).l1Data)))

/-- For every live part. BLOCK_START, where the tile may start a block, places it in a block slot that was free, with its groups in group slots that were
free, each with 32 live threads at the kernel's code and registers that read as zero. KERNEL_END of a tile whose blocks are over and whose stores are
all performed leaves it without work. IDLE_GATE powers an idle tile down, in the reset state, or starts to drain its store buffer first; DRAIN_LIMIT
discards the entries still there, counts them and sets the event. For every live part. TILE_ECC of a tile in service resets it: no work, no group,
array and accumulator memory zero, its reset counted; the fault is recorded with code 0x80 where none was, and its self-test runs. TILE_SELF_TEST_DONE
that passes returns a tile which had not met the error before to service; with AUTO set a failing one, its row having a spare, is mapped out: a bypass
of its column waits for a boundary, and the tile stays in reset. (spec/03_thread_groups.md; spec/07_tile_local_array.md; spec/16_sharing_scheduling.md; spec/17_power_thermal.md; spec/01_organisation.md; spec/18_reliability_repair.md) -/
def Obligations.KernelsAndTileErrors : Prop :=
  (
  ∀ (s : State) (t : TileId) (now : Nat), s.live →
    let x := s.part.tile t
    (∀ i k b, s.part.blockReady t = some (i, k, b) → (∃ c, c < 8 ∧ (x.block c).used = false) →
      k.p.groups ≤ ((List.range 16).filter fun c => (x.group c).live = 0).length →
      s.gives (.blockStart t now) (fun q => q.now = max s.part.now now ∧ (q.tile t).nextPos = x.nextPos + 1 ∧ ∃ c, c < 8 ∧ (x.block c).used = false ∧
        ((q.tile t).block c).used = true ∧ ((q.tile t).block c).index = b ∧ ((q.tile t).block c).groups = k.p.groups ∧
        ∀ n, n < k.p.groups → ∃ g, g < 16 ∧ (x.group g).live = 0 ∧ (q.group t g).block = c ∧ (q.group t g).index = n ∧ (q.group t g).live = 0xFFFFFFFF ∧
          (q.group t g).pc = BitVec.ofNat 48 k.p.code ∧ (q.group t g).regs = [])) ∧
    (∀ i k, x.work = .kernel i → s.part.kernel i = some k → x.stopping = false → x.faulted = false → k.killed = false → s.part.blocksOver t k = true →
      x.live = [] → x.sb = [] → x.dirtySectors = [] → x.unacked = [] → s.part.wbDone t s.part.nextId = true →
      s.gives (.kernelEnd t now) (fun q => (q.tile t).work = .idle ∧ (q.tile t).groups = [] ∧ (q.tile t).arr = x.arr ∧ q.now = max s.part.now now)) ∧
    (x.vacant = true → x.sb = [] → s.gives (.idleGate t) (fun q => s.part.OnlyTile q t ∧ (q.tile t).gated = true ∧ (q.tile t).arr = [] ∧ (q.tile t).acc = [] ∧
      q.rd TL_RESET_STATUS_CAUSE t = 0)) ∧
    (x.vacant = true → x.sb ≠ [] → s.gives (.idleGate t) (fun q => s.part.OnlyTile q t ∧ (q.tile t).gating = true ∧ (q.tile t).sb = x.sb)) ∧
    (x.gating = true → x.sb ≠ [] → s.gives (.drainLimit t) (fun q => (q.tile t).gated = true ∧ (q.tile t).sb = [] ∧ q.rd TL_RESET_STATUS_CAUSE t = 2 ∧
      q.rd TL_RESET_STATUS_LOST_STORES t = min x.sb.length 32 ∧ q.rd TL_EVENTS_STORES_LOST t = 1 ∧ q.rd TL_EVENTS_DRAIN_LIMIT t = 1 ∧
      ∀ a, q.byteAt a = s.part.byteAt a))) ∧
  (
  ∀ (s : State) (t : TileId) (now : Nat), s.live →
    let x := s.part.tile t
    (x.inReset = false → x.gated = false → s.gives (.tileEcc t now) (fun q => (q.tile t).inReset = true ∧ (q.tile t).testing = true ∧ (q.tile t).work = .idle ∧
      (q.tile t).groups = [] ∧ (q.tile t).arr = [] ∧ (q.tile t).acc = [] ∧ (q.tile t).lastEcc = some (max s.part.now now) ∧
      q.rd TL_RESET_STATUS_CAUSE t = 1 ∧ q.rd TL_EVENTS_FAULT t = 1 ∧ (s.part.rd TL_EVENTS_FAULT t = 0 → q.rd TL_FAULT_CODE t = 0x80))) ∧
    (x.testing = true → x.swapped = false → x.repeated = false → s.part.rd GLOBAL_REPAIR_CFG_AUTO = 1 → ∀ r : Bool,
      s.gives (.tileSelfTestDone t true r now) (fun q => (q.tile t).inReset = false ∧ (q.tile t).testing = false)) ∧
    (x.testing = true → x.swapped = false → s.part.rd GLOBAL_REPAIR_CFG_AUTO = 1 → s.part.spareFree (dieOf t) (rowOf t) = true → ∀ r : Bool,
      s.gives (.tileSelfTestDone t false r now) (fun q => (q.tile t).inReset = x.inReset ∧ (q.tile t).testing = false ∧
        q.repair.pending = s.part.repair.pending ++ [.bypass (dieOf t) (rowOf t) (s.part.physColOf t) t none])))

/-- For every live part in whose step the streams have started. WEIGHT_DESCRIPTOR_ACTIVE makes the channel's next descriptor active, nothing of it
written, once the one before has all its lines and the gates it names have been left. WEIGHT_LINE_WRITE of a line not yet written, in a granted
window, its sectors neither dead nor poisoned, no stack lost and no error met, writes its 256 bytes to their place in the array and counts the line;
in a window not granted the tile faults with ACCESS_DENIED. (spec/02_step_tick.md; spec/12_hbm.md) -/
def Obligations.WeightChannels : Prop :=
  ∀ (s : State) (t : TileId) (ch : Fin 2) (d : WDesc), s.live → s.part.step.running = true → s.part.meshGone t = false →
    let w := (s.part.tile t).weight ch
    (∀ rest, w.queue = d :: rest → s.part.step.started = true → (∀ e, w.active = some e → e.lines ≤ w.counter) → d.gate ≤ s.part.step.gatesLeft →
      s.gives (.weightDescriptorActive t ch) (fun q => (q.tile t).weight ch = { queue := rest, active := some d, written := [] } ∧
        (∀ a, q.byteAt a = s.part.byteAt a) ∧ (q.tile t).arr = (s.part.tile t).arr)) ∧
    (∀ line, w.active = some d → line < d.lines → line ∉ w.written →
      let a := d.src + 256 * line
      (s.part.granted 0 a 256 false = true → s.part.hbm.lost = none →
        (∀ k, k < 4 → s.part.pinLost (sectorOf (a + 64 * k)) = false ∧ s.part.isDead (s.part.phys (sectorOf (a + 64 * k))) = false ∧
          s.part.poisoned (s.part.phys (sectorOf (a + 64 * k))) = false) →
        ∀ k, s.gives (.weightLineWrite t ch line .ok k) (fun q => (q.tile t).weight ch = { w with written := insNat w.written line } ∧
          (∀ i, i < 256 → mget 0 (q.tile t).arr (d.dst + 256 * line + i) = s.part.byteAt (s.part.phys (sectorOf (a + 64 * (i / 64))) + i % 64)) ∧
          (∀ o, o < d.dst + 256 * line ∨ d.dst + 256 * line + 256 ≤ o → mget 0 (q.tile t).arr o = mget 0 (s.part.tile t).arr o))) ∧
      (s.part.granted 0 a 256 false = false → ∀ err k, s.gives (.weightLineWrite t ch line err k) (fun q => (q.tile t).faulted = true ∧ q.rd TL_EVENTS_FAULT t = 1 ∧
        (s.part.rd TL_EVENTS_FAULT t = 0 → q.rd TL_FAULT_CODE t = 0x05) ∧ (q.tile t).arr = (s.part.tile t).arr)))

/-- For every live part with no lost stack and a request that arrives by a port that carries it, from a member or a bound ingest writer, here of one
sector that is neither dead nor poisoned and is read without an error. WR not admitted is answered DENIED and stores nothing; one performed before is
acknowledged again and stores nothing; a FINAL whose earlier writes are not all performed is held, unanswered; any other stores exactly its masked
bytes, is acknowledged and counts for its key. FINAL_PERFORM stores a held FINAL that is due and acknowledges it. RD answers the 64 bytes, or DENIED,
and stores nothing. AMO runs the lanes' operations on the sector and answers the values stored just before. (spec/13_bellith_links.md; spec/10_memory_model.md; spec/09_atomics_transactions.md) -/
def Obligations.RemoteRequestsAtTheTarget : Prop :=
  ∀ (s : State), s.live → s.part.hbm.lost = none → s.part.dirtyWf →
    let p := s.part
    let here (a : Nat) : Prop := a % 64 = 0 ∧ p.Plain (lineOf a) ∧ p.pinLost a = false ∧ p.poisoned a = false
    (∀ (f : HeldFinal) (data : List Byte) (mask : List Bool), p.domain.finals.find? (fun g => g.key = f.key && p.finalReady g) = some f →
      p.leasedRange f.addr f.len (fun _ => false) = false → f.write = .store data mask → f.len = 64 → here f.addr → f.key.ingest = false →
      ∀ k, s.gives (.finalPerform f.key .ok k) (fun q => p.Stored q (sectorCells f.addr 0 data mask) ∧ f ∉ q.domain.finals ∧ .ackMsg f.key.sender f.seq false ∈ q.out)) ∧
    (∀ (r : RemoteReq), p.arrives r = true → p.foreign r = false →
      let k := p.rxKey r
      (∀ (w : RemoteWrite) (final : Option Nat) (err : EccErr) (i : Fin 16),
        (p.remoteOk r true = false → s.gives (.wr r w final err i) (fun q => .ackMsg (replyTo r) r.seq true ∈ q.out ∧ ∀ a, q.byteAt a = p.byteAt a)) ∧
        (p.remoteOk r true = true → (∀ f ∈ p.domain.finals, ¬ (f.key = k ∧ f.seq = r.seq)) →
          (p.repeated r = true → s.gives (.wr r w final err i) (fun q => .ackMsg (replyTo r) r.seq false ∈ q.out ∧ ∀ a, q.byteAt a = p.byteAt a)) ∧
          (p.repeated r = false → p.keysFull k = false → p.leasedRange r.addr r.len (fun _ => false) = false →
            let f : HeldFinal := { key := k, port := r.port, count := final.getD 0, seq := r.seq, addr := r.addr, len := r.len, write := w }
            (final.isSome = true → p.finalReady f = false → p.domain.finals.length < 256 → s.gives (.wr r w final err i) (fun q =>
              q.domain.finals = p.domain.finals ++ [f] ∧ q.out = p.out ∧ ∀ a, q.byteAt a = p.byteAt a)) ∧
            (∀ data mask, w = .store data mask → r.len = 64 → here r.addr → (final.isSome = true → p.finalReady f = true) → s.gives (.wr r w final .ok i) (fun q =>
              p.Stored q (sectorCells r.addr 0 data mask) ∧ .ackMsg (replyTo r) r.seq false ∈ q.out ∧ (final = none → r.seq ∈ q.keyDone k)))))) ∧
      (p.remoteOk r false = false → ∀ err i, s.gives (.rd r err i) (fun q => .rdataMsg (replyTo r) r.seq [] [] [] true ∈ q.out ∧ ∀ a, q.byteAt a = p.byteAt a)) ∧
      (p.remoteOk r false = true → r.len = 64 → here r.addr → ∀ i, s.gives (.rd r .ok i) (fun q =>
        .rdataMsg (replyTo r) r.seq (p.bytesAt r.addr 64) [false] [false] false ∈ q.out ∧ ∀ a, q.byteAt a = p.byteAt a)) ∧
      (∀ (op : AtomOp) (ty : AtomTy) (holder : Nat) (lanes : List AmoLane), r.key.ingest = false → p.remoteOk r true = true → p.repeated r = false →
        here r.addr → (∀ x ∈ p.net, x.id < p.nextId) → (∀ c ∈ lanes, c.off + atomSize ty ≤ 64) → p.leasedRange r.addr 64 (fun e => e.tile =
          remoteHolder r.key.sender r.key.step (holder / 16) && e.group = holder % 16) = false →
        let acc := lanes.map fun c => ({ lane := c.lane, addr := r.addr + c.off, reg := 0, val := c.val, cmp := c.cmp } : LaneAcc)
        let out := runLanes op ty false acc (p.bytesAt r.addr 64)
        s.gives (.amo r (.atom op ty) holder lanes .ok) (fun q => p.Stored q (out.1.mapIdx fun i b => (r.addr + i, b)) ∧
          .rdataMsg (replyTo r) r.seq (out.2.flatMap fun v => leBytes 8 v.2.toNat) [false] [false] false ∈ q.out)))

/-- For every live part. ACK takes the acknowledged write off the list of the tile that sent it; DENIED makes a step of that tile have faulted. RDATA of
an outstanding remote load writes the words to the registers of its lanes that still wait for it and to no other; denied, they carry the mark for it.
REMOTE_LOST_TIMEOUT ends the access at its time, and those registers carry the mark of a lost access. (spec/13_bellith_links.md; spec/10_memory_model.md) -/
def Obligations.RemoteAnswersAtTheSender : Prop :=
  ∀ (s : State), s.live →
    (∀ (dev : DevId) (seq : Nat) (t : TileId) (denied : Bool), mwf {} s.part.tiles = true →
      (∃ u ∈ (s.part.tile t).unacked, u.dev = dev.val ∧ u.seq = seq) →
      (∀ n, n ≠ t.val → ∀ u ∈ (s.part.tile n).unacked, ¬ (u.dev = dev.val ∧ u.seq = seq)) →
      s.gives (.ack dev seq denied) (fun q => (∀ u ∈ (q.tile t).unacked, ¬ (u.dev = dev.val ∧ u.seq = seq)) ∧
        (∀ u ∈ (s.part.tile t).unacked, ¬ (u.dev = dev.val ∧ u.seq = seq) → u ∈ (q.tile t).unacked) ∧
        (denied = true → (s.part.tile t).work = .step → q.step.faulted = true) ∧ ∀ a, q.byteAt a = s.part.byteAt a)) ∧
    (∀ (id n : Nat) (r : Req) (sx keep : Bool) (data : List Byte) (poison dead : Bool), s.part.req id = some r → r.dev.isSome = true → r.state = .sent →
      r.kind = .load n sx keep → (∀ c ∈ r.lanes, c.lane < 32) →
      let y := s.part.group r.tile r.group
      let marked (m : RegMark) (q : Part) : Prop := q.req id = none ∧ (q.group r.tile r.group).regs = y.regs ∧
        ∀ c ∈ r.lanes, ∀ i, i < (n + 3) / 4 → (∀ c' ∈ r.lanes, c'.lane = c.lane → c' = c) → y.awaits (c.reg + i) c.lane id = true →
          ((q.group r.tile r.group).mark (c.reg + i) c.lane).map (·.1) = some m
      s.gives (.rdata id data false false false) (fun q => q.req id = none ∧ (∀ a, q.byteAt a = s.part.byteAt a) ∧
        (∀ c ∈ r.lanes, ∀ i, i < (n + 3) / 4 → (∀ c' ∈ r.lanes, c'.lane = c.lane → c' = c) → y.awaits (c.reg + i) c.lane id = true →
          (q.group r.tile r.group).rg (c.reg + i) c.lane = loadWord n sx (r.laneData data c) i) ∧
        (∀ v l, l < 32 → y.awaits v l id = false → (q.group r.tile r.group).rg v l = y.rg v l)) ∧
      s.gives (.rdata id data poison dead true) (marked .remoteDenied) ∧
      s.gives (.remoteLostTimeout id) (fun q => marked .remoteLost q ∧
        q.now = max s.part.now (r.sentAt + us (max 10 (s.part.rd GLOBAL_FENCE_CFG_REMOTE_US)))))

/-- For every live part and port. PROBE: with a transmitter joined to a transmitter the port is BLOCKED, else the faulty lanes are quarantined and it goes
on to LANE_ID. LANE_ID in another lane order blocks it, else, lanes enough, it goes on to EQ; EQ to HANDSHAKE; HANDSHAKE with what BLK_CFG expects to
LINK_UP, otherwise the port is BLOCKED with CROSS_CONNECT; LINK_UP makes it ACTIVE at the width its lanes give. A DOWN port that is enabled goes back
to PROBE with no lane quarantined. EQ_ADAPT shows in no register. A successful retrain returns the port to ACTIVE, the third failure in a row brings
it DOWN. (spec/13_bellith_links.md) -/
def Obligations.PortTraining : Prop :=
  ∀ (s : State) (i : PortId), s.live →
    let p := s.part
    let st := p.rd BLK_STATUS_STATE i
    (∀ faults : List (Fin 8 × LaneFault), st = 1 →
      ((∃ f ∈ faults, f.2 = .cross) → s.gives (.probe i faults) (fun q => q.rd BLK_STATUS_STATE i = 9 ∧ q.rd BLK_EVENTS_CROSS_CONNECT i = 1)) ∧
      ((∀ f ∈ faults, f.2 ≠ .cross) → s.gives (.probe i faults) (fun q => q.rd BLK_STATUS_STATE i = 2 ∧
        ∀ f ∈ faults, (q.port i).quar.getLsbD f.1 = true))) ∧
    (∀ (rev : Bool) (inv : BitVec 8), st = 2 →
      (s.gives (.laneId i rev false inv 0) (fun q => q.rd BLK_STATUS_STATE i = 9 ∧ q.rd BLK_EVENTS_LANE_ORDER i = 1)) ∧
      ((p.portLanes i).1 ≠ 0 → s.gives (.laneId i rev true inv 0) (fun q => q.rd BLK_STATUS_STATE i = 3 ∧ q.rd BLK_STATUS_REVERSED i = b2n rev ∧
        ∀ l, l < 8 → q.rd BLK_LANE_POL_INV i l = b2n (inv.getLsbD l) ∧ q.rd BLK_LANE_FAR_LANE i l = if rev = true then 7 - l else l))) ∧
    (st = 3 → (p.portLanes i).1 ≠ 0 → s.gives (.eqTrain i 0) (fun q => q.rd BLK_STATUS_STATE i = 4)) ∧
    (∀ (dom port mode : Nat) (dev : DevId), st = 4 → p.rd BLK_CFG_MODE i ≠ 2 →
      (mode ≠ 2 → dom = p.rd GLOBAL_DOMAIN_CFG_DOMAIN_ID → dev.val = p.rd BLK_CFG_EXPECT_DEV i → port = p.rd BLK_CFG_EXPECT_PORT i →
        s.gives (.handshake i dom dev port mode) (fun q => q.rd BLK_STATUS_STATE i = 5 ∧ q.rd BLK_STATUS_PEER_DEV i = dev.val ∧
          q.rd BLK_STATUS_PEER_PORT i = port)) ∧
      (mode = 2 ∨ dom ≠ p.rd GLOBAL_DOMAIN_CFG_DOMAIN_ID ∨ dev.val ≠ p.rd BLK_CFG_EXPECT_DEV i ∨ port ≠ p.rd BLK_CFG_EXPECT_PORT i →
        s.gives (.handshake i dom dev port mode) (fun q => q.rd BLK_STATUS_STATE i = 9 ∧ q.rd BLK_EVENTS_CROSS_CONNECT i = 1))) ∧
    (st = 5 → (p.portLanes i).1 ≠ 0 → s.gives (.linkUp i) (fun q => q.rd BLK_STATUS_STATE i = 6 ∧ q.rd BLK_EVENTS_UP i = 1 ∧
      q.rd BLK_STATUS_WIDTH i = (p.portLanes i).1)) ∧
    (st = 8 → p.rd BLK_CFG_ENABLE i = 1 → (p.rd HUSK_PORTS_ENABLE).testBit i = true → s.gives (.downRetry i) (fun q => q.rd BLK_STATUS_STATE i = 1 ∧
      (q.port i).quar = 0 ∧ (q.port i).fails = 0)) ∧
    s.gives (.eqAdapt i) (fun q => q = p) ∧
    (∀ now, st = 7 → ((p.port i).retrains.filter fun t => max p.now now < t + ms 1000).length < 8 →
      ((p.portLanes i).1 ≠ 0 → s.gives (.retrainDone i true now) (fun q => q.rd BLK_STATUS_STATE i = 6 ∧ q.rd BLK_STATUS_WIDTH i = (p.portLanes i).1 ∧
        (q.port i).fails = 0)) ∧
      ((p.port i).fails = 2 → s.gives (.retrainDone i false now) (fun q => q.rd BLK_STATUS_STATE i = 8 ∧ q.rd BLK_EVENTS_DOWN i = 1)))

/-- For every live part and ACTIVE port. FLIT_RECEIVE of a flit with a bad CRC counts it, discards what follows and sends a NAK with the last good number;
a good one with the expected number and no NAK advances the expected number modulo 256; one already taken changes nothing but acknowledgements.
ACK_TIMEOUT with flits outstanding starts a quick retrain. MARGIN_UPDATE of a good lane shows its eye and keeps the port ACTIVE. CREDIT_STALL sets its
event. On an ACTIVE ingest port INGEST_STATUS changes nothing, and any other control message sets FOREIGN_CTRL. (spec/13_bellith_links.md) -/
def Obligations.FlitsAndMargins : Prop :=
  ∀ (s : State) (i : PortId) (f : Flit), s.live → s.part.rd BLK_STATUS_STATE i = 6 →
    let p := s.part
    let x := p.port i
    (f.crcOk = false → s.gives (.flitReceive i f) (fun q => (q.port i).discarding = true ∧ (q.port i).expect = x.expect ∧
      .nak i ((x.expect + 255) % 256) ∈ q.out ∧ q.rd BLK_COUNTS_CRC_ERR i = min (p.rd BLK_COUNTS_CRC_ERR i + 1) (2 ^ BLK_COUNTS_CRC_ERR.wid - 1))) ∧
    (f.crcOk = true → f.nak = false →
      (f.seq % 256 = x.expect → s.gives (.flitReceive i f) (fun q => (q.port i).expect = (x.expect + 1) % 256 ∧ (q.port i).discarding = false ∧ q.out = p.out)) ∧
      (f.seq % 256 ≠ x.expect → (x.expect + 256 - f.seq % 256) % 256 ≤ 64 → s.gives (.flitReceive i f) (fun q => (q.port i).expect = x.expect ∧ q.out = p.out)) ∧
      (f.seq % 256 ≠ x.expect → 64 < (x.expect + 256 - f.seq % 256) % 256 → x.discarding = false → s.gives (.flitReceive i f) (fun q =>
        (q.port i).expect = x.expect ∧ (q.port i).discarding = true ∧ .nak i ((x.expect + 255) % 256) ∈ q.out)) ∧
      (x.replay.contains (f.ack % 256) = true → s.gives (.flitReceive i f) (fun q =>
        (q.port i).replay = (x.replay.dropWhile (· ≠ f.ack % 256)).drop 1 ∧ (q.port i).resends = 0))) ∧
    (x.replay ≠ [] → s.gives (.ackTimeout i) (fun q => q.rd BLK_STATUS_STATE i = 7 ∧ q.rd BLK_EVENTS_RETRAIN i = 1 ∧
      p.now ∈ (q.port i).retrains ∧ ∀ a, q.byteAt a = p.byteAt a)) ∧
    (∀ (l : Fin 8) (mv mui corr : Nat), p.rd BLK_CFG_MARGIN_MV i ≤ mv → mget 0 x.low (16 + l.val) + corr ≤ 1000000 →
      s.gives (.marginUpdate i [(l, mv, mui, corr)]) (fun q => q.rd BLK_STATUS_STATE i = 6 ∧ q.rd BLK_LANE_EYE_MV i l = min mv 255 ∧
        q.rd BLK_LANE_EYE_MUI i l = min mui 1000 ∧ (q.port i).quar = x.quar)) ∧
    s.gives (.creditStall i) (fun q => q.rd BLK_EVENTS_CREDIT_STALL i = 1 ∧ q.rd BLK_STATUS_STATE i = 6) ∧
    s.gives (.ingestStatus i false) (fun q => q = p) ∧
    (p.rd BLK_CFG_MODE i = 2 → s.gives (.ingestStatus i true) (fun q => q.rd BLK_EVENTS_FOREIGN_CTRL i = 1 ∧ q.rd BLK_STATUS_STATE i = 6))

/-- For every live part. A tick master takes a HELLO it does not refuse for the next boundary and counts a refused one with its cause. MEMBER_SEND sends
the set to every other member. MEMBER makes a device that asked a member, replaces a member's set and declares those gone dead, and makes a device it
leaves out no member, acting as its own tick master. ROUTE_LOST_SEND reports to the master; two reports, or the master's own, remove the member.
PEER_DEAD_TIMEOUT declares a peer without route dead. DOMAIN_LEAVE of a minority leaves. SYMBITE_FWD and FORWARD_TIMEOUT end a forward with the reply
of its command. (spec/13_bellith_links.md; spec/15_symbite_commands.md) -/
def Obligations.DomainMembership : Prop :=
  ∀ (s : State), s.live →
    let p := s.part
    (∀ h : Hello, p.joined = true → p.isMaster = true →
      (p.refuses h = 0 → s.gives (.hello h) (fun q => q = { p with domain := { p.domain with hellos := insNat p.domain.hellos h.dev } })) ∧
      (p.refuses h ≠ 0 → s.gives (.hello h) (fun q => q.domain = p.domain ∧ q.rd GLOBAL_DOMAIN_EVENTS_JOIN_REFUSED = 1 ∧
        q.rd GLOBAL_DOMAIN_EVENTS_REFUSE_CAUSE = p.refuses h))) ∧
    (p.joined = true → p.isMaster = true → s.gives .memberSend (fun q => (∀ d, d < 64 → p.member d = true → d ≠ p.dev → .member p.memberMask ∈ q.out) ∧
      q.memberMask = p.memberMask)) ∧
    (∀ mask : W64, (p.joined = false → mask.getLsbD p.dev = true → p.dev ∈ p.domain.hellos → s.gives (.member mask) (fun q => q.joined = true ∧
        q.memberMask = mask ∧ q.isMaster = false ∧ q.rd TICK_STATUS_SYNC_STATE = 3)) ∧
      (p.joined = true → p.isMaster = false → mask.getLsbD p.dev = true → s.gives (.member mask) (fun q => q.memberMask = mask ∧ q.joined = true ∧
        ∀ d, d < 64 → p.member d = true → d ∉ p.domain.declared → mask.getLsbD d = false → (q.reg reg_GLOBAL_DEAD).getLsbD d = true)) ∧
      (p.joined = true → p.isMaster = false → mask.getLsbD p.dev = false → s.gives (.member mask) (fun q => q.joined = false ∧ q.isMaster = true ∧
        q.rd GLOBAL_DOMAIN_EVENTS_EXCLUDED = 1 ∧ q.step.halted = true))) ∧
    (∀ d : DevId, p.noRoute d = true →
      (p.isMaster = false → s.gives (.routeLostSend d) (fun q => .routeLost d.val ∈ q.out ∧ q.memberMask = p.memberMask)) ∧
      (p.isMaster = true → d.val ∉ p.domain.declared → s.gives (.routeLostSend d) (fun q => q.memberMask = p.memberMask &&& ~~~(bit64 d) ∧ (q.reg reg_GLOBAL_DEAD).getLsbD d = true)) ∧
      (d.val ∉ p.domain.declared → s.gives (.peerDeadTimeout d) (fun q => (q.reg reg_GLOBAL_DEAD).getLsbD d = true ∧ q.memberMask = p.memberMask))) ∧
    (∀ a d : DevId, p.joined = true → p.isMaster = true → p.member a = true → p.member d = true → d.val ≠ p.dev →
      ((∀ c ∈ p.domain.reports, c.2 ≠ d.val) → s.gives (.routeLost a d) (fun q => q.domain.reports = p.domain.reports ++ [(a.val, d.val)] ∧
        q.memberMask = p.memberMask)) ∧
      ((∃ b, b ≠ a.val ∧ (b, d.val) ∈ p.domain.reports) → s.gives (.routeLost a d) (fun q => q.memberMask = p.memberMask &&& ~~~(bit64 d)))) ∧
    (p.joined = true → p.majority = false → s.gives .domainLeave (fun q => q.joined = false ∧ q.isMaster = true ∧ q.rd GLOBAL_DOMAIN_EVENTS_LEFT = 1 ∧
      q.step.halted = true)) ∧
    (∀ (f : Fwd) (cls : CmdClass) (fn : FnId) (op : BitVec 16) (body : List Byte) (d : DevId), f.dev = d.val →
      p.host.fwds.find? (fun g => g.id = f.id && g.dev = d.val) = some f →
      s.gives (.symbiteFwd d true f.id cls fn op body) (fun q =>
        q = ({ p with host := { p.host with fwds := p.host.fwds.filter fun g => g.id ≠ f.id } } : Part).reply f.issue op.toNat (leAt body 0 8) (body.drop 8))) ∧
    (∀ f : Fwd, p.host.fwds.find? (fun g => g.id = f.id) = some f → s.gives (.forwardTimeout f.id) (fun q =>
      (∀ g ∈ q.host.fwds, g.id ≠ f.id) ∧ q.rd CMD_COUNTS_FWD_LOST = min (p.rd CMD_COUNTS_FWD_LOST + 1) (2 ^ CMD_COUNTS_FWD_LOST.wid - 1)))

/-- For every live part. TICK_BOUNDARY with no repair, image, hello or firmware switch waiting: time is at the boundary, TICK_NUMBER rises by one, the
next boundary is one period on where no plan says otherwise, the due repair records are written. COMMIT clears both counts and, an image active and
not halted, begins a new attempt; ABANDON counts and begins anew; HALT stops stepping; STRETCH counts and leaves the step as it is; a missing verdict
sets VERDICT_MISSING and leaves it too. STEP_START with every pod of the step free starts streams and routers, or completes a step without slots;
STEP_COMPLETE completes it once tiles and routers are done, not when it has faulted. GUARD_START enters the guard window with the step's report. (spec/02_step_tick.md; spec/18_reliability_repair.md) -/
def Obligations.BoundariesAndSteps : Prop :=
  ∀ (s : State) (im : Image), s.live →
    let p := s.part
    let quiet := p.repair.pending = [] ∧ p.step.staged = none ∧ p.domain.hellos = [] ∧ p.repair.fwIssue = none ∧ p.tick.resumeReq = false ∧
      p.tick.haltReq = false ∧ p.tick.plans = []
    let boundary (Q : Part → Prop) : Prop := ∃ q x, exec .tickBoundary s = .next { s with part := q, serial := x } ∧ Q q
    (quiet → boundary (fun q => q.now = max p.now p.tick.boundary ∧ q.reg reg_TICK_NUMBER = p.reg reg_TICK_NUMBER + 1 ∧
      q.tick.boundary = p.tick.boundary + p.period ∧ q.tick.verdictIn = none ∧ q.repair.due = [])) ∧
    (∀ beyond : Bool, quiet → p.step.active = some im → p.step.halted = false →
      (p.tick.verdictIn = some (.commit, beyond) → boundary (fun q => q.step.running = true ∧ q.step.started = false ∧ q.tick.phase = .step ∧
        q.rd TICK_STATUS_ABANDON_COUNT = 0 ∧ q.rd TICK_STATUS_STRETCH_COUNT = 0 ∧ q.rd TICK_STATUS_STEP_STATE = 1)) ∧
      (p.tick.verdictIn = some (.abandon, beyond) → boundary (fun q => q.step.running = true ∧ q.step.started = false ∧
        q.rd TICK_STATUS_ABANDON_COUNT = min (p.rd TICK_STATUS_ABANDON_COUNT + 1) (2 ^ TICK_STATUS_ABANDON_COUNT.wid - 1) ∧
        q.rd TICK_STATUS_STRETCH_COUNT = 0 ∧ q.rd TICK_EVENTS_ABANDONED = 1)) ∧
      (p.tick.verdictIn = some (.halt, beyond) → boundary (fun q => q.step.running = false ∧ q.step.halted = true ∧ q.tick.phase = .opened ∧
        q.rd TICK_EVENTS_HALTED = 1 ∧ q.rd TICK_STATUS_STEP_STATE = 5)) ∧
      (p.tick.verdictIn = some (.stretch, beyond) → boundary (fun q => q.step = p.step ∧ q.rd TICK_EVENTS_STRETCHED = 1 ∧
        q.rd TICK_STATUS_STRETCH_COUNT = min (p.rd TICK_STATUS_STRETCH_COUNT + 1) (2 ^ TICK_STATUS_STRETCH_COUNT.wid - 1))) ∧
      (p.tick.verdictIn = none → boundary (fun q => q.step = p.step ∧ q.rd TICK_EVENTS_VERDICT_MISSING = 1 ∧ q.rd TICK_STATUS_STEP_STATE = 4))) ∧
    (∀ now, p.step.active = some im → p.canStart = true →
      (p.step.runs = [] → s.gives (.stepStart now) (fun q => q.step.started = true ∧ q.step.complete = true ∧ q.now = max p.now now)) ∧
      (p.step.runs ≠ [] → s.gives (.stepStart now) (fun q => q.step.started = true ∧ q.step.startAt = max p.now now ∧ q.step.streams = p.streamTiles im ∧
        ∀ t, t < 3072 → (q.router t).slot = 0 ∧ (q.router t).cycle = 0 ∧ (q.router t).bank = (p.router t).bank ∧
          (q.router t).state = if (p.router t).dead = true then .ended else .running))) ∧
    (∀ now, p.stepGoes = true → p.step.started = true → (∀ t ∈ p.step.streams, t ∈ p.step.done) → (∀ t, t < 3072 → (p.router t).state = .ended) →
      (p.step.faulted = false → s.gives (.stepComplete now) (fun q => q.step.complete = true ∧ q.now = max p.now now ∧
        ∀ t ∈ p.step.streams, (q.tile t).work ≠ .step)) ∧
      (p.step.faulted = true → s.gives (.stepComplete now) (fun q => q.step = p.step ∧ q.now = max p.now now))) ∧
    (p.tick.phase ≠ .guard → s.gives .guardStart (fun q => q.tick.phase = .guard ∧ q.now = max p.now (p.tick.boundary - us (p.rd TICK_CTL_GUARD_US)) ∧
      q.tick.lastStatus = (if p.step.running = false then .complete else if p.step.faulted = true then .faulted else if p.step.complete = true then .complete
        else .running) ∧
      (p.joined = true → p.isMaster = false → ∃ a b, .stepStatus q.tick.lastStatus a b ∈ q.out)))

/-- For every live part. The tick master takes a member's report in time; at its decision it gives NONE without an active image, COMMIT when every device
reports complete, ABANDON when one has faulted and attempts are left, and sends the verdict to every other member. Another member takes the verdict it
is sent, counts OVERRUN, and stops the step on ABANDON or HALT. ANNOUNCE_SEND fixes the values of the tick after the next, a written TICK_CTL among
them; a member records an ANNOUNCE for a later tick. SYNC_SEND sends the time to every other member each millisecond; SYNC brings a member's time up
to the master's and ends holdover; HOLDOVER sets its state and event; MASTER_LOST makes the first successor that is a member the master. (spec/02_step_tick.md; spec/13_bellith_links.md) -/
def Obligations.VerdictsAnnouncementsAndTime : Prop :=
  ∀ (s : State), s.live →
    let p := s.part
    (∀ (d : DevId) (rep : StepReport) (a b : Nat), p.isMaster = true → p.member d = true → p.now + us 12 ≤ p.tick.boundary →
      s.gives (.stepStatusReceived d rep a b) (fun q => (d.val, rep, a, b) ∈ q.tick.statuses ∧ (∀ c ∈ q.tick.statuses, c.1 = d.val → c = (d.val, rep, a, b)) ∧
        q.ctl = p.ctl)) ∧
    (p.isMaster = true → p.tick.phase = .guard → p.tick.verdictIn = none →
      (p.step.active = none → s.gives .verdictDecision (fun q => q.tick.verdictIn = some (.noStep, false) ∧ q.now = max p.now (p.tick.boundary - us 10))) ∧
      (p.step.active ≠ none → p.step.halted = false →
        ((∀ r ∈ p.reportsIn, r = .complete) → s.gives .verdictDecision (fun q => q.tick.verdictIn = some (.commit, false) ∧
          (p.joined = true → ∀ d, d < 64 → p.member d = true → d ≠ p.dev → .verdict .commit false ∈ q.out))) ∧
        (.faulted ∈ p.reportsIn → p.rd TICK_STATUS_ABANDON_COUNT + 1 < p.rd TICK_CTL_REPLAY_MAX → s.gives .verdictDecision (fun q =>
          q.tick.verdictIn = some (.abandon, p.reportsIn.contains .running) ∧ q.step.running = false)))) ∧
    (∀ (v : Verdict) (beyond : Bool), p.isMaster = false → p.joined = true → s.gives (.verdict v beyond) (fun q => q.tick.verdictIn = some (v, beyond) ∧
      (beyond = true → q.rd TICK_EVENTS_OVERRUN = 1) ∧ (v = .abandon ∨ v = .halt → q.step.running = false))) ∧
    (p.isMaster = true → p.tick.announced = false → p.tick.plans = [] → s.gives .announceSend (fun q => q.tick.announced = true ∧ q.tick.ctlHeld = none ∧
      q.tick.plans = [{ tick := p.tickNo + 2, boundary := p.tick.boundary + p.period, ctl := p.tick.ctlHeld.getD (p.reg reg_TICK_CTL),
                        written := p.tick.ctlHeld.isSome }])) ∧
    (∀ (n b : Nat) (ctl : W64), p.isMaster = false → p.joined = true → p.rd TICK_STATUS_SYNC_STATE ≠ 3 → p.tickNo + 1 < n →
      s.gives (.announce n b ctl) (fun q => { tick := n, boundary := b, ctl := ctl, written := false } ∈ q.tick.plans ∧ q.ctl = p.ctl)) ∧
    (p.isMaster = true → p.joined = true → s.gives .syncSend (fun q => q.tick.syncSent = p.tick.syncSent + ms 1 ∧
      ∀ d, d < 64 → p.member d = true → d ≠ p.dev → .sync (max p.now (p.tick.syncSent + ms 1)) ∈ q.out)) ∧
    (∀ (m : DevId) (mt hop now : Nat), p.isMaster = false → p.joined = true → m.val = p.tick.master → p.rd TICK_STATUS_SYNC_STATE ≠ 3 →
      s.gives (.sync m mt hop now) (fun q => q.now = max (max p.now now) (mt + hop) ∧ q.tick.lastSync = q.now ∧ q.rd TICK_STATUS_SYNC_STATE = 1 ∧
        q.rd TICK_STATUS_ALIGN = alignBits ((max p.now now : Nat) - (mt + hop : Nat)))) ∧
    (∀ now, p.isMaster = false → p.joined = true → p.rd TICK_STATUS_SYNC_STATE ≠ 2 → p.tick.lastSync + us 2500 < max now p.now →
      s.gives (.holdover now) (fun q => q.rd TICK_STATUS_SYNC_STATE = 2 ∧ q.rd TICK_EVENTS_HOLDOVER = 1 ∧ q.now = max p.now now)) ∧
    (∀ now d, p.isMaster = false → p.joined = true → p.tick.lastSync + ms 4 ≤ max now p.now → p.successors.find? (fun d => p.member d && d ≠ p.tick.master) = some d →
      s.gives (.masterLost now) (fun q => q.tick.master = d ∧ q.rd TICK_EVENTS_MASTER_CHANGE = 1 ∧ (d = p.dev → q.isMaster = true) ∧
        (d ≠ p.dev → q.isMaster = false)))

/-- For every live part. DBP_SQ_DB with no record or a generation out of reach is bad, one that announces nothing new changes nothing, and any other is
the doorbell of its queue, whose slot is then read when the queue was idle. DBP_CQ_DB frees the entries up to its count. DBP_Q_CTL restarts a stopped
queue. SLOT_READ_DATA accepts a matching slot as the next record, and after 8 misses stops the queue; SLOT_REREAD reads again. HOST_READ_TIMEOUT stops
the queue with its cause. COMMAND_START starts the oldest record where there is room, one the Husk admits. STATUS_REPLY writes the reply of a started
command. DBP_MBX_SEND and UCI_MBX_SEND carry the 16 words of a message. (spec/14_host_coupling.md; spec/15_symbite_commands.md) -/
def Obligations.QueuesDoorbellsAndMailboxes : Prop :=
  ∀ (s : State) (fn : FnId) (n : Fin 32), s.live →
    let p := s.part
    let x := p.sq fn n
    (∀ v : W32,
      (v = 0 ∨ (x.state ≠ 0 ∧ 2 ^ x.log2 ≤ genDist x.after v.toNat) → s.gives (.dbpSqDb fn n v) (fun q => q.rd UCI_EVENTS_DB_BAD = 1 ∧ q.host = p.host)) ∧
      (v ≠ 0 → (x.state = 0 ∨ genDist x.after v.toNat < 2 ^ x.log2) → x.covered v.toNat = false → s.gives (.dbpSqDb fn n v) (fun q =>
        q.sq fn n = { x with doorbell := v.toNat } ∧
        (x.announced = 0 → x.state = 1 → p.repair.fwOld = false → 0 < (q.sq fn n).announced → .hostRead fn n ∈ q.out)))) ∧
    (∀ v : W32, let d := (v.toNat + 2 ^ 32 - (p.cq fn n).consumed % 2 ^ 32) % 2 ^ 32
      (0 < d → d ≤ (p.cq fn n).written - (p.cq fn n).consumed → s.gives (.dbpCqDb fn n v) (fun q => q.cq fn n = { p.cq fn n with consumed := (p.cq fn n).consumed + d } ∧
        q.ctl = p.ctl)) ∧
      ((p.cq fn n).written - (p.cq fn n).consumed < d → s.gives (.dbpCqDb fn n v) (fun q => q.rd UCI_EVENTS_DB_BAD = 1 ∧ q.host = p.host))) ∧
    (∀ v : W64, getB v 0 1 = 1 → x.state = 2 → getB v 32 32 ≠ 0 → x.covered (getB v 32 32) = true → s.gives (.dbpQCtl fn n true v) (fun q =>
      (q.sq fn n).state = 1 ∧ (q.sq fn n).cause = 0 ∧ (q.sq fn n).expect = getB v 32 32)) ∧
    (∀ v : W64, s.gives (.dbpQCtl fn n false v) (fun q => q = p)) ∧
    (∀ slot : List Byte, x.state = 1 → x.announced ≠ 0 → slot.length = 2 ^ x.slotLog2 →
      (slotMatches slot fn n x.expect = true → s.gives (.slotReadData fn n slot) (fun q =>
        q.host.accepted = p.host.accepted ++ [p.recOf slot fn n x.expect] ∧ (q.sq fn n).accepted = x.expect ∧ (q.sq fn n).expect = nextGen x.expect)) ∧
      (slotMatches slot fn n x.expect = false → x.misses < 8 → s.gives (.slotReadData fn n slot) (fun q => (q.sq fn n).misses = x.misses + 1 ∧
        (q.sq fn n).state = 1 ∧ q.host.accepted = p.host.accepted)) ∧
      (slotMatches slot fn n x.expect = false → 8 ≤ x.misses → s.gives (.slotReadData fn n slot) (fun q => (q.sq fn n).state = 2 ∧ (q.sq fn n).cause = 1 ∧
        q.rd UCI_EVENTS_DB_AHEAD = 1))) ∧
    (x.state = 1 → x.retrying = true → x.rereads < 8 → s.gives (.slotReread fn n) (fun q => .hostRead fn n ∈ q.out ∧ (q.sq fn n).rereads = x.rereads + 1)) ∧
    (x.state = 1 → 0 < x.announced → s.gives (.hostReadTimeout fn n none) (fun q => (q.sq fn n).state = 2 ∧ (q.sq fn n).cause = 2 ∧
      q.rd UCI_EVENTS_HOST_TIMEOUT = 1)) ∧
    (∀ r, p.host.accepted.find? (fun r => r.fn = fn.val && r.q = n.val) = some r → p.repair.fwOld = false → (p.cq fn x.cq).room = true →
      (p.host.started.filter fun y => y.fn = fn.val).length < 64 → r.ordered = false → p.huskAnswer r = none → s.gives (.commandStart fn n) (fun q =>
        q.host.started = p.host.started ++ [r] ∧ q.host.accepted = p.host.accepted.filter (fun y => !isRec fn n r.gen y) ∧
        (q.cq fn x.cq).reserved = (p.cq fn x.cq).reserved + 1)) ∧
    (∀ (gen : W32) (st : BitVec 16) (detail : W64) (r : CmdRec), p.host.started.find? (isRec fn n gen) = some r → r.silent = false → p.attached = true →
      s.gives (.statusReply fn n gen st detail) (fun q => (∀ y ∈ q.host.started, isRec fn n gen y = false) ∧ (q.cq fn x.cq).written = (p.cq fn x.cq).written + 1 ∧
        ∃ i ph, .reply { op := r.op, fn := fn, sq := n, tag := r.tag, gen := gen, status := st, event := false, detail := detail, time := p.ns }
          (some x.cq) i ph ∈ q.out)) ∧
    (p.vfEnabled fn = true → s.gives (.dbpMbxSend fn) (fun q => (q.reg reg_UCI_MBX_PENDING).getLsbD fn = true ∧
      ∀ i, i < 16 → q.page (mailKey fn (8 * i)) = p.page (pageKey fn (0x800 + 8 * i)))) ∧
    (∀ mask : W64, mask.getLsbD fn = true → p.vfEnabled fn = true → s.gives (.uciMbxSend mask) (fun q => (q.page (pageKey fn 0x900)).getLsbD 1 = true ∧
      ∀ i, i < 16 → q.page (pageKey fn (0x880 + 8 * i)) = p.page (mailKey fn (0x80 + 8 * i))))

/-- For every part out of reset. BAR0_ACCESS reads a register of control space, writes one while no fatal error has occurred, and captures an access that
nothing answers; BAR2_ACCESS outside a granted window is captured and changes no byte. LINK_DOWN of an active link and LINK_RETRAIN set its state and
events. DETACH_TIMEOUT, HOT_RESET and PF_FLR of an attached part detach it with their cause and stop every running queue. VF_FLR stops the function's
queues, drops its records not started and silences its started commands. POISONED_REPLY of a read brings it back poisoned, of a write loses it. (spec/14_host_coupling.md; spec/15_symbite_commands.md; spec/18_reliability_repair.md) -/
def Obligations.HostAccessesAndLink : Prop :=
  ∀ (s : State), s.pins.inReset = false →
    let p := s.part
    (∀ (o w : Nat) (v : W64), hostWord (o / 8 * 8) = .reg →
      (∀ u q', csAligned o w = true → p.csRead o w = some (u, q') → s.gives (.bar0Access o w false v) (fun q => q = q'.emit (.readData (some u)))) ∧
      (p.csRead o w = none → s.gives (.bar0Access o w false v) (fun q => q.rd UCI_EVENTS_BAD_ACCESS = 1 ∧ .readData none ∈ q.out)) ∧
      (∀ q', csAligned o w = true → p.fatal = false → p.csWrite o w v = some q' → s.gives (.bar0Access o w true v) (fun q => q = q')) ∧
      (p.fatal = true → s.gives (.bar0Access o w true v) (fun q => q = p))) ∧
    (∀ (o : Nat) (write : Bool) (len : Nat) (data : List Byte), p.fatal = false →
      let a := 0x10000000 * p.rd UCI_BAR2_BASE_BASE + o
      let n := if write = true then data.length else len
      (n ≠ 0 → p.granted 0 a n write = false → s.gives (.bar2Access o write len data) (fun q => q.rd UCI_EVENTS_BAD_ACCESS = 1 ∧
        ∀ b, q.byteAt b = p.byteAt b)) ∧
      (0 < len → p.hbmIn (a + len - 1) = true → p.granted 0 a len false = true → s.gives (.bar2Access o false len data) (fun q =>
        (∃ bs, .barData bs ∈ q.out ∧ bs.length = len) ∧ ∀ b, q.byteAt b = p.byteAt b)) ∧
      (0 < data.length → p.hbmIn (a + data.length - 1) = true → p.granted 0 a data.length true = true →
        s.gives (.bar2Access o true len data) (fun q => q = p.storeRange a data))) ∧
    (∀ now, p.rd UCI_STATUS_LINK_STATE = 5 → s.gives (.linkDown now) (fun q => q.rd UCI_STATUS_LINK_STATE = 6 ∧ q.rd UCI_EVENTS_LINK_DOWN = 1 ∧
      q.host.downAt = max p.now now)) ∧
    (∀ (m : BitVec 2) (a b : Nat), (m ≠ 0 → s.gives (.linkRetrain m a b) (fun q => q.rd UCI_STATUS_LINK_STATE = 5 ∧ q.rd UCI_STATUS_MODULES = m.toNat ∧
        q.rd UCI_EVENTS_RETRAIN = 1 ∧ (m ≠ 3 → q.rd UCI_EVENTS_MODULE_LOST = 1))) ∧
      (m = 0 → s.gives (.linkRetrain m a b) (fun q => q.rd UCI_STATUS_LINK_STATE = 7 ∧ q.rd UCI_EVENTS_MODULE_LOST = 1))) ∧
    (p.attached = true →
      let gone (cause : Nat) (q : Part) : Prop := q.attached = false ∧ q.rd UCI_STATUS_DETACH_CAUSE = cause ∧ q.rd UCI_EVENTS_DETACH = 1 ∧
        (∀ c ∈ q.host.sqs, c.2.state ≠ 1) ∧ q.host.started = p.host.started ∧ q.sched = p.sched
      s.gives .hotReset (gone 2) ∧ s.gives .pfFlr (gone 3) ∧
      (∀ now, p.rd UCI_STATUS_LINK_STATE ≠ 5 → p.host.downAt + ms (clamp 1 1000 (p.rd UCI_CFG_DETACH_MS)) ≤ max now p.now →
        s.gives (.detachTimeout now) (gone 1))) ∧
    (∀ fn : FnId, p.vfEnabled fn = true → s.gives (.vfFlr fn) (fun q => (∀ r ∈ q.host.accepted, r.fn ≠ fn.val) ∧
      (∀ r ∈ q.host.started, r.fn = fn.val → r.silent = true) ∧ q.host.started.length = p.host.started.length ∧
      (∀ c ∈ q.host.sqs, c.1 / 32 = fn.val → c.2.state = 0) ∧ (∀ r ∈ p.host.accepted, r.fn ≠ fn.val → r ∈ q.host.accepted))) ∧
    (∀ (id join : Nat) (br : Bool) (r : Req), p.fatal = false → p.req id = some r → r.state = .sent → s.gives (.poisonedReply id join br) (fun q => q.req id = none ∧
      (∀ a, q.byteAt a = p.byteAt a) ∧ ((if br = true then ukBridge else ukBond), join) ∈ q.repair.joins))

/-- For every Symbite command and every live part. Before the Running stage nothing answers; in Recovery only class B, with BAD_STATE for all but NOP and
IMAGE_PUSH. In the Running stage a header its class does not allow gets BAD_HEADER; an opcode the Husk does not allow for the class, CLASS_DENIED,
counted and captured; then a packet of a host queue that finds the part detached, BAD_STATE, except ATTACH. A packet that names another device is
forwarded when its opcode may be and the device is a member; else it gets CLASS_DENIED or TARGET_UNKNOWN. A packet that another device forwarded is
denied unless that device is a member. (spec/15_symbite_commands.md; spec/14_host_coupling.md; spec/19_boot_identity_husk.md; notes/assumptions/30.md (BAD_STATE while detached is the model's reading)) -/
def Obligations.SymbiteChecks : Prop :=
  ∀ (s : State) (i : Instr) (c : Issue) (k : Nat), s.live → i.symbite = some (c, k) →
    let p := s.part
    let p1 := p.counted c
    let op := opCodes.getD k 0
    (p.stage ≠ 7 → p.stage ≠ 8 → s.gives i (fun q => q = p)) ∧
    (p.stage = 8 → c.cls ≠ .b → s.gives i (fun q => q = p)) ∧
    (p.stage = 8 → c.cls = .b → k ≠ 0 → k ≠ 44 → s.gives i (fun q => q = p.reply c stBadState 0)) ∧
    (p.stage = 8 → c.cls = .b → k = 0 → s.gives i (fun q => q = p.reply c stOK 0)) ∧
    (p.stage = 7 → c.badFor → s.gives i (fun q => p.Answers q c stBadHeader 0 [])) ∧
    (p.stage = 7 → ¬ c.badFor → p1.admits k c.cls = false → s.gives i (fun q => p1.Denied q c op stClassDenied)) ∧
    (p.stage = 7 → ¬ c.badFor → p1.admits k c.cls = true → p.detachedFor c k → s.gives i (fun q => p.Answers q c stBadState 0 [])) ∧
    (p.stage = 7 → ¬ p.detachedFor c k → ¬ c.badFor → p1.admits k c.cls = true →
      (∀ d, c.origin = some d → p1.member d = false → s.gives i (fun q => p1.Denied q c op stClassDenied)) ∧
      (∀ d, c.remote = some d → c.origin = none → d.val ≠ p.dev →
        (k ∉ opForwards → s.gives i (fun q => p1.Denied q c op stClassDenied)) ∧
        (k ∈ opForwards → p1.member d = false → s.gives i (fun q => p.Answers q c stTargetUnknown 0 [])) ∧
        (k ∈ opForwards → p1.member d = true → s.gives i (fun q =>
          q.host.fwds = p.host.fwds ++ [{ id := p.host.nextFwd, dev := d, issue := c }] ∧ q.host.nextFwd = p.host.nextFwd + 1 ∧
          q.tiles = p.tiles ∧ q.mem = p.mem))))

/-- For every live part and every packet that passes the Husk's checks. NOP answers OK. IDENTIFY, DOMAIN_STATUS and SENSOR_READ answer the bytes of their
registers, cut to OUT_LEN, DETAIL their length; INVENTORY_READ and LOG_READ whole records from the cursor, DETAIL the bytes and the next cursor;
QUERY_ACCOUNT seven 64-bit counters and the time. GET_ATTEST answers the quote and its signature, GET_CERTS whole certificates; a part without
identity answers BAD_STATE to both. ATTACH of a detached part attaches it. QUEUE_CREATE makes a completion or a running submission queue as its
parameters say; a queue in use gets BAD_PARAM. QUEUE_DESTROY disables a submission queue, whose waiting records are gone, and removes a completion
queue that no live submission queue uses. (spec/15_symbite_commands.md; spec/14_host_coupling.md; spec/19_boot_identity_husk.md; notes/assumptions/9.md (signatures and certificates are free values)) -/
def Obligations.QueriesAndQueueCommands : Prop :=
  ∀ (s : State) (c : Issue), s.live →
    let p := s.part
    let p1 := p.counted c
    let out (l : List Reg) : List Byte := (l.flatMap fun r => p1.regBytes r).take c.outLen
    (p.Passes c 0 → s.gives (.nop c) (fun q => p.Answers q c stOK 0 [])) ∧
    (p.Passes c 1 → let b := out [reg_GLOBAL_PART, reg_GLOBAL_DEV, reg_GLOBAL_INV]
      s.gives (.identify c) (fun q => p.Answers q c stOK b.length b)) ∧
    (p.Passes c 35 → let b := out [reg_GLOBAL_MEMBERS, reg_GLOBAL_DEAD, reg_TICK_STATUS]
      s.gives (.domainStatus c) (fun q => p.Answers q c stOK b.length b)) ∧
    (p.Passes c 38 → s.gives (.sensorRead c) (fun q => ∃ b, p.Answers q c stOK b.length b ∧ b.length = min c.outLen 840 ∧
      ∀ r, r < 48 → 8 * r + 8 ≤ c.outLen → slice b (8 * r) 8 = p1.regBytes reg_RGN_PWR r)) ∧
    (∀ n, p.Passes c 3 → n < p1.inventory.length → s.gives (.inventoryRead c n) (fun q =>
      let b := (p1.inventory.drop n).take (c.outLen / 64)
      p.Answers q c stOK (64 * b.length + 2 ^ 32 * (if p1.inventory.length ≤ n + b.length then 0 else n + b.length)) b.flatten)) ∧
    (∀ log n, p.Passes c 4 → log ≤ 1 → s.gives (.logRead c log n) (fun q =>
      let l := if log = 0 then p1.elog else s.serial.records
      let b := (l.drop n).take (c.outLen / 32)
      p.Answers q c stOK (32 * b.length + 2 ^ 32 * (if l.length ≤ n + b.length then 0 else n + b.length)) b.flatten)) ∧
    (∀ (fn : FnId) (clear : Bool), p.Passes c 10 → ownOnly c fn = true → s.gives (.queryAccount c fn clear) (fun q => q.Replied c stOK fun r detail b =>
      detail = b.length ∧ b.length = min c.outLen 64 ∧ (clear = true → ∀ g ∈ accountRegs, r.reg g 0 fn = 0))) ∧
    (∀ nonce, p.Passes c 40 → (p1.noIdentity = true → s.gives (.getAttest c nonce) (fun q => p.Answers q c stBadState 0 [])) ∧
      (p1.noIdentity = false → s.gives (.getAttest c nonce) (fun q => ∃ b, p.Answers q c stOK b.length b ∧
        b = (State.quote { s with part := p1 } nonce ++ fix 384 (Config.quoteSignature (State.quote { s with part := p1 } nonce))).take c.outLen))) ∧
    (∀ n, p.Passes c 41 → (p1.noIdentity = true → s.gives (.getCerts c n) (fun q => p.Answers q c stBadState 0 [])) ∧
      (p1.noIdentity = false → s.gives (.getCerts c n) (fun q => ∃ b next, p.Answers q c stOK (b.length + 2 ^ 32 * next) b ∧ b.length ≤ c.outLen))) ∧
    (p.Passes c 2 → p1.attached = false → s.gives (.attach c) (fun q => q.Replied c stOK fun r _ _ =>
      r.attached = true ∧ r.rd UCI_EVENTS_ATTACH = 1 ∧ r.host.attachTick = p.tickNo ∧ r.host.openStop = false)) ∧
    (p.Passes c 2 → p1.attached = true → s.gives (.attach c) (fun q => p.Answers q c stBadState 0 [])) ∧
    (∀ v : QueueParams, p.Passes c 5 → ownOnly c v.targetFn = true → v.queue ≤ 31 → v.targetFn.val ≤ p1.rd UCI_STATUS_NUM_VF → 4 ≤ v.entriesLog2 →
      v.entriesLog2 ≤ 12 → v.vector < vectors v.targetFn → v.base % 4096 = 0 →
      (v.completion = true → (p1.cq v.targetFn v.queue).exists_ = false → (v.events = true → p1.eventCq v.targetFn = none) →
        s.gives (.queueCreate c v) (fun q => q.Replied c stOK fun r _ _ => r.cq v.targetFn v.queue =
          { exists_ := true, base := v.base, log2 := v.entriesLog2, vector := v.vector, events := v.events })) ∧
      (v.completion = false → (p1.sq v.targetFn v.queue).state = 0 → 7 ≤ v.slotLog2 → v.slotLog2 ≤ 12 → v.cq ≤ 31 →
        (p1.cq v.targetFn v.cq).exists_ = true → s.gives (.queueCreate c v) (fun q => q.Replied c stOK fun r _ _ => r.sq v.targetFn v.queue =
          { state := 1, base := v.base, log2 := v.entriesLog2, slotLog2 := v.slotLog2, vector := v.vector, cq := v.cq })) ∧
      (v.completion = false → (p1.sq v.targetFn v.queue).state ≠ 0 → s.gives (.queueCreate c v) (fun q => p.Answers q c stBadParam 0 []))) ∧
    (∀ (n : Nat) (fn : FnId), p.Passes c 6 → ownOnly c fn = true → n ≤ 31 →
      ((p1.sq fn n).state ≠ 0 → s.gives (.queueDestroy c false n fn) (fun q => q.Replied c stOK fun r _ _ => (r.sq fn n).state = 0 ∧
        ∀ x ∈ r.host.accepted, x.fn = fn.val → x.q ≠ n)) ∧
      ((p1.cq fn n).exists_ = true → (∀ i, i < 32 → (p1.sq fn i).state ≠ 0 → (p1.sq fn i).cq ≠ n) → s.gives (.queueDestroy c true n fn) (fun q =>
        q.cq fn n = {})) ∧
      ((p1.cq fn n).exists_ = true → (∃ i, i < 32 ∧ (p1.sq fn i).state ≠ 0 ∧ (p1.sq fn i).cq = n) → s.gives (.queueDestroy c true n fn) (fun q =>
        p.Answers q c stBadState 0 [])))

/-- For every live part and every packet that passes the Husk's checks. VF_CREATE with parameters in range and no collision writes the function's record
and grants its pods; one with a record gets BAD_PARAM. VF_DESTROY of a function without kernels removes record, grants and queues. VF_SET_SHARE sets
the share. POD_ASSIGN grants, takes away, joins pods to the step pool or removes them from it. LAUNCH queues the kernel as the newest, KERNEL_KILL
ends one. REVOKE releases every reservation in its scope and tells every slice its scope; kind 0 and kinds above 7 get BAD_PARAM. HINT stores the next
set. INGEST_BIND binds or unbinds ports 15 to 17. DOMAIN_JOIN asks the tick master; DOMAIN_EXCLUDE by the tick master makes the device dead. (spec/15_symbite_commands.md; spec/16_sharing_scheduling.md; spec/09_atomics_transactions.md; spec/13_bellith_links.md; spec/17_power_thermal.md) -/
def Obligations.FunctionsKernelsAndDomainCommands : Prop :=
  ∀ (s : State) (c : Issue), s.live →
    let p := s.part
    let p1 := p.counted c
    (∀ v : VfParams, p.Passes c 7 →
      (v.vf = 0 ∨ p1.hasRecord v.vf = true → s.gives (.vfCreate c v) (fun q => p.Answers q c stBadParam 0 [])) ∧
      (v.vf ≠ 0 → p1.hasRecord v.vf = false → v.vf.val ≤ p1.rd UCI_STATUS_NUM_VF → 0 < v.share → v.share ≤ 65535 → v.seqFirst ≤ 4095 →
        v.seqFirst + v.seqCount ≤ 4096 → v.pageQuota < 2 ^ 32 → v.saveSlots ≤ 192 → v.saveSlotKib ≤ 65535 → v.saveSlotKib % 4 = 0 →
        p1.saveWinOk v.saveWin = true → v.saveSlots * v.saveSlotKib * 1024 ≤ p1.winSize v.saveWin →
        (∀ g, g < 64 → g ≠ v.vf.val → p1.hasRecord g = true → p1.rd SCHED_FN_CFG_SAVE_WIN 0 g ≠ v.saveWin ∧
          overlap v.seqFirst v.seqCount (p1.rd SCHED_FN_SEQ_SEQ_FIRST 0 g) (p1.rd SCHED_FN_SEQ_SEQ_COUNT 0 g) = false) →
        (maskPods v.pods).length ≤ v.saveSlots → (∀ n ∈ maskPods v.pods, inMask p1.repair.retiredPods n = false) →
        s.gives (.vfCreate c v) (fun q => q.Replied c stOK fun r _ _ => r.share v.vf = v.share ∧ r.rd SCHED_FN_CFG_SAVE_WIN 0 v.vf = v.saveWin ∧
          r.rd SCHED_FN_CFG_SAVE_SLOTS 0 v.vf = v.saveSlots ∧ r.rd SCHED_FN_SEQ_SEQ_FIRST 0 v.vf = v.seqFirst ∧
          r.rd SCHED_FN_SEQ_SEQ_COUNT 0 v.vf = v.seqCount ∧ r.rd SCHED_FN_SEQ_PAGE_QUOTA 0 v.vf = v.pageQuota ∧
          ∀ n ∈ maskPods v.pods, (r.rd PD_GRANT_FN n).testBit v.vf = true))) ∧
    (∀ (vf : FnId) (dead : Bool), p.Passes c 8 →
      (vf = 0 ∨ p1.hasRecord vf = false → s.gives (.vfDestroy c vf dead) (fun q => p.Answers q c stBadParam 0 [])) ∧
      (vf ≠ 0 → p1.hasRecord vf = true → p1.fnKernels vf = [] → s.gives (.vfDestroy c vf dead) (fun q => q.Replied c stOK fun r _ _ =>
        r.hasRecord vf = false ∧ (∀ n, n < 192 → (r.rd PD_GRANT_FN n).testBit vf = false) ∧ ∀ n, n < 32 → (r.sq vf n).state = 0)) ∧
      (vf ≠ 0 → p1.hasRecord vf = true → p1.fnKernels vf ≠ [] → s.gives (.vfDestroy c vf dead) (fun q => q.rd SCHED_EVENTS_ABORTED = 1))) ∧
    (∀ (vf : FnId) (n : Nat), p.Passes c 9 → p1.hasRecord vf = true → 0 < n → n ≤ 65535 →
      s.gives (.vfSetShare c vf n) (fun q => q.Replied c stOK fun r _ _ => r.share vf = n ∧ r.tiles = p.tiles)) ∧
    (∀ (m : PodMask) (fn : FnId), p.Passes c 11 →
      (p1.grantCount fn + ((maskPods m).filter fun n => !(p1.rd PD_GRANT_FN n).testBit fn).length ≤
          p1.rd SCHED_FN_CFG_SAVE_SLOTS 0 fn → (∀ n ∈ maskPods m, inMask p1.repair.retiredPods n = false) →
        s.gives (.podAssign c m fn .grant) (fun q => q.Replied c stOK fun r _ _ => ∀ n ∈ maskPods m, (r.rd PD_GRANT_FN n).testBit fn = true)) ∧
      (p1.fnKernels fn = [] → s.gives (.podAssign c m fn .ungrant) (fun q => q.Replied c stOK fun r _ _ =>
        ∀ n ∈ maskPods m, (r.rd PD_GRANT_FN n).testBit fn = false)) ∧
      ((∀ n ∈ maskPods m, inMask p1.repair.retiredPods n = false) → s.gives (.podAssign c m fn .join) (fun q => q.Replied c stOK fun r _ _ =>
        ∀ n ∈ maskPods m, r.rd PD_CFG_STEP_POOL n = 1)) ∧
      ((∀ n ∈ maskPods m, p1.imagePod n = false) → s.gives (.podAssign c m fn .leave) (fun q => q.Replied c stOK fun r _ _ =>
        ∀ n ∈ maskPods m, r.rd PD_CFG_STEP_POOL n = 0))) ∧
    (∀ l : LaunchParams, p.Passes c 30 → 0 < l.blocks → 0 < l.nReg → l.nReg ≤ 256 → 0 < l.groups → l.groups ≤ 16 → l.l1Size ≤ 4 → l.code % 8 = 0 →
      l.pods ≠ 0 → (∀ n ∈ maskPods l.pods, (p1.rd PD_GRANT_FN n).testBit c.fn = true) → p1.copyCheck c.fn l.code 8 false = 0 →
      p1.copyCheck c.fn l.argPtr 1 false = 0 → 0 < residentBlocks l.groups l.nReg l.localBytes (scratchOf l.l1Size) →
      footprint l ≤ p1.rd SCHED_FN_CFG_SAVE_SLOT_KIB 0 c.fn → s.gives (.launch c l) (fun q => let k := p.sched.nextKernel
        q.sched.order = p.sched.order ++ [k] ∧ q.sched.nextKernel = k + 1 ∧ q.host = p1.host ∧ q.tiles = p.tiles ∧
        ∃ at_, q.kernel k = some { fn := c.fn, p := l, issue := c, accepted := at_ })) ∧
    (∀ (tag : W32) (n : Nat), p.Passes c 31 →
      (∀ k ∈ p1.sched.order, ∀ x, p1.kernel k = some x → ¬ (x.fn = c.fn.val ∧ x.issue.tag = tag ∧ x.issue.sq = n ∧ x.killed = false)) →
      s.gives (.kernelKill c tag n) (fun q => p.Answers q c stBadParam 0 [])) ∧
    (∀ (tag : W32) (n k : Nat) (x : Kernel), p.Passes c 31 → p1.sched.order = [k] → p1.kernel k = some x → x.fn = c.fn.val → x.issue.tag = tag →
      x.issue.sq = n → x.killed = false → s.gives (.kernelKill c tag n) (fun q => q.Replied c stOK fun r _ _ =>
        ∀ y, r.kernel k = some y → y.killed = true)) ∧
    (∀ w : BitVec 16, p.Passes c 32 →
      (w.toNat / 4096 = 0 ∨ 7 < w.toNat / 4096 → s.gives (.revoke c w) (fun q => p.Answers q c stBadParam 0 [])) ∧
      (0 < w.toNat / 4096 → w.toNat / 4096 ≤ 7 → p.FnsOk → s.gives (.revoke c w) (fun q => q.Replied c stOK fun r _ _ => ∀ z, z < 256 →
        r.rd LLC_REVOKE_LAST_SCOPE z = w.toNat ∧ ∀ h ∈ (r.slice z).rsvs, p1.inScope (w.toNat / 4096) (w.toNat % 4096) h.tile = false))) ∧
    (∀ es : List W64, p.Passes c 29 → es.length ≤ 511 → (∀ e ∈ es, badHint e = false) → s.gives (.hint c es) (fun q => q.Replied c stOK fun r _ _ =>
      r = { p1 with power := { p1.power with hintsNext := some es } })) ∧
    (∀ (i : PortId) (f : Option FnId), p.Passes c 21 →
      (i.val < 15 → s.gives (.ingestBind c i f) (fun q => p.Answers q c stBadParam 0 [])) ∧
      (15 ≤ i.val → s.gives (.ingestBind c i f) (fun q => q.Replied c stOK fun r _ _ => r.rd BLK_INGEST_BOUND i = b2n f.isSome ∧
        r.rd BLK_INGEST_FN i = (f.map (·.val)).getD 0))) ∧
    (p.Passes c 33 → (p1.joined = true ∨ p1.rd GLOBAL_DOMAIN_CFG_TOPOLOGY = 0 → s.gives (.domainJoin c) (fun q => p.Answers q c stBadState 0 [])) ∧
      (p1.joined = false → p1.rd GLOBAL_DOMAIN_CFG_TOPOLOGY ≠ 0 → s.gives (.domainJoin c) (fun q => q.Replied c stOK fun r _ _ =>
        p.dev ∈ r.domain.hellos ∧ (p1.rd TICK_MASTER_CFG_MASTER ≠ p.dev → .hello p1.ownHello ∈ r.out)))) ∧
    (∀ d : DevId, p.Passes c 34 →
      (p1.joined = false ∨ p1.isMaster = false → s.gives (.domainExclude c d) (fun q => p.Answers q c stBadState 0 [])) ∧
      (p1.joined = true → p1.isMaster = true → p1.member d = true → d.val ≠ p.dev → s.gives (.domainExclude c d) (fun q => q.Replied c stOK fun r _ _ =>
        r.deadDev d = true)))

/-- For every live part and pod. POD_DISPATCH gives a free pod on which tenant work may run to the function with the lowest virtual time: its saved kernel
is to be restored, else its waiting kernel starts on every tile of the pod; a pod that is not free keeps its state. SAVE_COMPLETE of a pod under save
whose tiles have drained frees the pod and keeps the kernel's state. RESTORE_COMPLETE of a pod under restore returns its kernel, and preempts it at
once when tenant work may not run. SCHEDULER_CHECK ends the wait of every command whose kernels have ended and, with share preemption off and no
command waiting, leaves the state of every pod. (spec/16_sharing_scheduling.md; spec/02_step_tick.md; spec/07_tile_local_array.md) -/
def Obligations.SchedulerOnPods : Prop :=
  ∀ (s : State) (n : PodId) (now : Nat), s.live → s.part.FnsOk →
    let p := s.part
    (p.openPod n = false ∨ p.podState n ≠ 0 ∨ p.rd PD_STATUS_OWNER_KIND n ≠ 0 ∨ p.podFit n = false ∨ (p.at now).chargeAll.nextFn n = none →
      s.gives (.podDispatch n now) (fun q => q = p)) ∧
    (∀ f, p.openPod n = true → p.podState n = 0 → p.rd PD_STATUS_OWNER_KIND n = 0 → p.podFit n = true → (p.at now).chargeAll.nextFn n = some f →
      (∀ v, p.savedOn n f = some v → s.gives (.podDispatch n now) (fun q => q.podState n = 3 ∧ q.rd PD_STATUS_OWNER_FN n = f ∧
        q.rd PD_STATUS_OWNER_KIND n = 1 ∧ (q.podRun n).kernel = some v.kernel ∧ q.tiles = p.tiles)) ∧
      (∀ k x, p.savedOn n f = none → p.waitingOn n f = some k → p.kernel k = some x → s.gives (.podDispatch n now) (fun q => q.podState n = 1 ∧
        q.rd PD_STATUS_OWNER_FN n = f ∧ q.rd PD_STATUS_OWNER_KIND n = 1 ∧ (q.podRun n).kernel = some k ∧
        ∀ t ∈ podTiles n, (q.tile t).work = .kernel k ∧ (q.tile t).live = [] ∧ (q.tile t).arr = [] ∧ (q.tile t).acc = []))) ∧
    ((p.podRun n).kernel = none ∨ p.podState n ≠ 2 → s.gives (.saveComplete n now) (fun q => q = p)) ∧
    (∀ k, (p.podRun n).kernel = some k → p.podState n = 2 →
      (∀ t ∈ p.podWork n k, (p.tile t).seq ≠ .ending ∧ (p.tile t).sb = [] ∧ (p.tile t).dirtySectors = [] ∧ (p.tile t).unacked = [] ∧
        p.wbDone t p.nextId = true) → (∀ r ∈ p.net, r.tile ∉ p.podWork n k) →
      s.gives (.saveComplete n now) (fun q => q.podState n = 0 ∧ q.rd PD_STATUS_OWNER_KIND n = 0 ∧ (q.podRun n).kernel = none ∧
        (∀ t ∈ p.podWork n k, (q.tile t).work = .idle) ∧
        ∀ x, p.kernel k = some x → x.killed = false → ∃ v ∈ q.sched.saved, v.pod = n.val ∧ v.kernel = k ∧ v.fn = x.fn ∧
          v.tiles = (p.podWork n k).map fun t => (t, (p.tile t).kept))) ∧
    ((p.podRun n).kernel = none ∨ p.podState n ≠ 3 → s.gives (.restoreComplete n now) (fun q => q = p)) ∧
    (∀ k v x, (p.podRun n).kernel = some k → p.podState n = 3 → p.sched.saved.find? (fun v => v.pod = n.val && v.kernel = k) = some v → p.kernel k = some x →
      s.gives (.restoreComplete n now) (fun q => q.podState n = (if p.openPod n = true then 1 else 2) ∧ (q.podRun n).kernel = some k ∧
        (∀ w ∈ q.sched.saved, ¬ (w.pod = v.pod ∧ w.kernel = v.kernel)))) ∧
    s.gives (.schedulerCheck now) (fun q => q.now = max p.now now ∧
      (∀ w ∈ p.sched.waits, (∀ k ∈ w.kernels, p.kernel k = none) → w ∉ q.sched.waits) ∧
      (p.rd SCHED_CFG_SHARE_PREEMPT = 0 → p.sched.waits = [] → ∀ m, m < 192 → q.podState m = p.podState m))

/-- For every live part and packet that passes the Husk's checks. WINDOW_CREATE rejects bad parameters, conflicts and quotas with their status; else the
lowest free number is a window with its base, size, attributes, ways and grant, and DETAIL is the number. WINDOW_MODIFY gives a window its new ways
and grant at once, and waits for the clean of the ways it lost. WINDOW_DESTROY takes no new accesses and waits for the clean. WAYS_LOCK answers at
once when the count stays or falls to a free range, and cleans when it rises. WAYS_POWER cleans and waits, answers what is so already, and refuses
group 0 and ways in use; WAY_GROUP_AVAILABLE ends a power-up with every way of the group powered. STACK_EVACUATE of a stack in service makes the
migration start, with another lost or under evacuation it gets BAD_STATE. (spec/08_shared_cache.md; spec/12_hbm.md; spec/15_symbite_commands.md) -/
def Obligations.WindowAndWayCommands : Prop :=
  ∀ (s : State) (c : Issue), s.live →
    let p := s.part
    let p1 := p.counted c
    (∀ v : WinParams, p.Passes c 12 →
      let w : Win := { base := v.base, size := 4096 * v.size4k, attr := v.attr, ways := v.ways, grant := v.grant, backing := getB v.gold0 0 52 }
      (badWin v = true → s.gives (.windowCreate c v) (fun q => p.Answers q c stBadParam 0 [])) ∧
      (badWin v = false → p1.conflict 64 w true = true → s.gives (.windowCreate c v) (fun q => p.Answers q c stWindowConflict 0 [])) ∧
      (badWin v = false → p1.conflict 64 w true = false → p1.overQuota 64 w = true →
        s.gives (.windowCreate c v) (fun q => p.Answers q c stNoResource 0 [])) ∧
      (badWin v = false → p1.conflict 64 w true = false → p1.overQuota 64 w = false → s.gives (.windowCreate c v) (fun q => ∃ n, n < 64 ∧
        p1.winValid n = false ∧ (∀ m, m < n → p1.winValid m = true) ∧ q.Replied c stOK fun r detail _ => detail = n ∧ r.winValid n = true ∧
          r.winBase n = v.base ∧ r.winSize n = 4096 * v.size4k ∧ r.winWays n = v.ways ∧ r.reg reg_LLC_WIN_ATTR 0 n = v.attr ∧
          r.reg reg_LLC_WIN_GRANT 0 n = v.grant ∧ ∀ m, m < 64 → m ≠ n → r.winOf m = p1.winOf m))) ∧
    (∀ (w ways codec : Nat) (grant : W64) (strict : Bool), p.Passes c 13 →
      (63 < w ∨ p1.winValid w = false → s.gives (.windowModify c w ways grant strict codec) (fun q => p.Answers q c stBadParam 0 [])) ∧
      (let old := p1.winOf w
       let new : Win := { old with ways, grant, attr := setB (setB old.attr 4 3 codec) 7 1 (b2n strict) }
       w ≤ 63 → p1.winValid w = true → ways < 2 ^ 16 → codec < 8 → w ∉ p1.closing →
        (∀ f, f < 64 → p1.hasRecord f = true → p1.rd SCHED_FN_CFG_SAVE_WIN 0 f ≠ w) → p1.conflict w new false = false → p1.overQuota w new = false →
        (old.ways &&& (65535 - ways) = 0 → s.gives (.windowModify c w ways grant strict codec) (fun q => q.Replied c stOK fun r _ _ =>
          r.winWays w = ways ∧ r.reg reg_LLC_WIN_GRANT 0 w = grant ∧ r.reg reg_LLC_WIN_ATTR 0 w = new.attr)) ∧
        (old.ways &&& (65535 - ways) ≠ 0 → s.gives (.windowModify c w ways grant strict codec) (fun q =>
          p1.Cleaning q (.modify w (old.ways &&& (65535 - ways))) c ∧ q.winWays w = ways ∧ q.reg reg_LLC_WIN_GRANT 0 w = grant)))) ∧
    (∀ w : Nat, p.Passes c 14 →
      (63 < w ∨ p1.winValid w = false → s.gives (.windowDestroy c w) (fun q => p.Answers q c stBadParam 0 [])) ∧
      (w ≤ 63 → p1.winValid w = true → (w ∈ p1.closing ∨ ∃ f, f < 64 ∧ p1.hasRecord f = true ∧ p1.rd SCHED_FN_CFG_SAVE_WIN 0 f = w) →
        s.gives (.windowDestroy c w) (fun q => p.Answers q c stBadState 0 [])) ∧
      (w ≤ 63 → p1.winValid w = true → w ∉ p1.closing → (∀ f, f < 64 → p1.hasRecord f = true → p1.rd SCHED_FN_CFG_SAVE_WIN 0 f ≠ w) →
        s.gives (.windowDestroy c w) (fun q => p1.Cleaning q (.destroy w) c ∧ w ∈ q.closing ∧ q.ctl = p1.ctl))) ∧
    (∀ l : Nat, p.Passes c 15 →
      (12 < l → s.gives (.waysLock c l) (fun q => p.Answers q c stBadParam 0 [])) ∧
      (l ≤ 12 → l = p1.lockL → s.gives (.waysLock c l) (fun q => p.Answers q c stOK 0 [])) ∧
      (l ≤ 12 → l ≠ p1.lockL → (p1.repair.sliceMap ≠ [] ∨ p1.lockTo ≠ p1.lockL) → s.gives (.waysLock c l) (fun q => p.Answers q c stWaysInUse 0 [])) ∧
      (l ≤ 12 → l < p1.lockL → p1.repair.sliceMap = [] → p1.lockTo = p1.lockL →
        (p1.pinnedIn (pinBase + l * 0x4000000) ((p1.lockL - l) * 0x4000000) = true → s.gives (.waysLock c l) (fun q => p.Answers q c stWaysInUse 0 [])) ∧
        (p1.pinnedIn (pinBase + l * 0x4000000) ((p1.lockL - l) * 0x4000000) = false → s.gives (.waysLock c l) (fun q => q.Replied c stOK fun r _ _ =>
          r.lockL = l ∧ ∀ z, z < 256 → r.rd LLC_STATUS_WAYS_LOCKED z = lockedMask l))) ∧
      (l ≤ 12 → p1.lockL < l → p1.repair.sliceMap = [] → p1.lockTo = p1.lockL →
        let added := lockedMask l &&& (65535 - lockedMask p1.lockL)
        (∀ m, m < 64 → p1.winValid m = true → p1.winType m = 2 ∨ p1.winWays m &&& added = 0) →
        (∀ w t, w < 16 → t < 4 → added.testBit w = true → p1.poweredOn t (2 ^ w) 0 = true) →
        s.gives (.waysLock c l) (fun q => p1.Cleaning q (.lock l) c))) ∧
    (∀ (t : TuberId) (g : Fin 4) (on : Bool), p.Passes c 16 →
      let m := 15 * 2 ^ (4 * g.val)
      let up := p1.rd LLC_STATUS_WAYS_POWERED (64 * t.val) &&& m = m
      let busy := ∃ k ∈ p1.cleans, k.kind = .powerDown t g ∨ k.kind = .powerUp t g
      (g = 0 → on = false → s.gives (.waysPower c t g on) (fun q => p.Answers q c stBadParam 0 [])) ∧
      (¬ (g = 0 ∧ on = false) → busy → s.gives (.waysPower c t g on) (fun q => p.Answers q c stWaysInUse 0 [])) ∧
      (¬ (g = 0 ∧ on = false) → ¬ busy → (up ↔ on = true) → s.gives (.waysPower c t g on) (fun q => p.Answers q c stOK 0 [])) ∧
      (¬ busy → ¬ up → on = true → s.gives (.waysPower c t g on) (fun q => p1.Cleaning q (.powerUp t g) c)) ∧
      (g ≠ 0 → ¬ busy → up → on = false → lockedMask p1.lockTo &&& m = 0 →
        (∀ n, n < 64 → p1.winValid n = true → t.val ∈ (p1.winOf n).tubers → p1.poweredOn t (p1.winWays n) m = true) →
        s.gives (.waysPower c t g on) (fun q => p1.Cleaning q (.powerDown t g) c))) ∧
    (∀ (t : TuberId) (g : Fin 4) (k : Clean), p.cleans.find? (fun k => k.kind = .powerUp t g) = some k →
      s.gives (.wayGroupAvailable t g) (fun q => (∀ y ∈ q.cleans, y.token ≠ k.token) ∧
        ∀ i j, i < 64 → j < 4 → (q.rd LLC_STATUS_WAYS_POWERED (64 * t.val + i)).testBit (4 * g.val + j) = true)) ∧
    (∀ (t : TuberId) (g : Fin 4), (∀ k ∈ p.cleans, k.kind ≠ .powerUp t g) → s.gives (.wayGroupAvailable t g) (fun q => q = p)) ∧
    (∀ h : StackId, p.Passes c 22 →
      (p1.rd HBM_STATUS_STATE h ≠ 2 ∨ p.hbm.lost ≠ none ∨ p.hbm.evac ≠ none → s.gives (.stackEvacuate c h) (fun q => p.Answers q c stBadState 0 [])) ∧
      (p1.rd HBM_STATUS_STATE h = 2 → p.hbm.lost = none → p.hbm.evac = none → s.gives (.stackEvacuate c h) (fun q => q.hbm.evac = some (h.val, c) ∧
        q.rd HBM_STATUS_STATE h = 3 ∧ q.rd HBM_MIGRATE_LOST_STACK = h.val ∧ q.rd HBM_MIGRATE_STATE = 1 ∧ q.host = p.host)))

/-- For every live part whose memory is sound (no poison, no dead line, no lost stack, no remapped slice) and every packet that passes the Husk's checks.
MEM_READ answers the bytes of a granted range and changes no byte; MEM_WRITE stores exactly its bytes, whole aligned sectors; PRELOAD copies HBM into
the pinned buffer; PMAP_UPDATE stores its entries, then the count; each refuses what is not granted with the fault's code. STEP_LOAD of a good image
stages it under its number, a bad digest or header leaves nothing staged. STEP_ACTIVATE of the staged image fills every router's staging bank and
waits for its boundary; each failed check has its status. STEP_HALT and STEP_RESUME are noted for the next boundary. SEQ_WRITE replaces the host's
fields of an entry, SEQ_READ answers entries; without an active image both get BAD_STATE. (spec/15_symbite_commands.md; spec/09_atomics_transactions.md; spec/02_step_tick.md; spec/06_static_mesh.md; spec/08_shared_cache.md) -/
def Obligations.CopiesImagesAndSequences : Prop :=
  ∀ (s : State) (c : Issue), s.live → s.part.Sound →
    let p := s.part
    let p1 := p.counted c
    (∀ a : Nat, p.Passes c 18 →
      (4096 < c.outLen → s.gives (.memRead c a) (fun q => p.Answers q c stBadParam 0 [])) ∧
      (c.outLen ≤ 4096 → p1.copyCheck c.fn a c.outLen false ≠ 0 →
        s.gives (.memRead c a) (fun q => p.Answers q c (p1.copyCheck c.fn a c.outLen false) 0 [])) ∧
      (c.outLen ≤ 4096 → p1.copyCheck c.fn a c.outLen false = 0 →
        s.gives (.memRead c a) (fun q => q.Replied c stOK fun r d bs =>
          d = c.outLen ∧ bs = p1.shown a c.outLen ∧ ∀ b, r.byteAt b = p1.byteAt b))) ∧
    (∀ (a : Nat) (bs : List Byte), p.Passes c 19 →
      (a % 64 ≠ 0 ∨ bs.length % 64 ≠ 0 ∨ 4088 < bs.length → s.gives (.memWrite c a bs) (fun q => p.Answers q c stBadParam 0 [])) ∧
      (a % 64 = 0 → bs.length = 64 → p1.copyCheck c.fn a 64 true ≠ 0 →
        s.gives (.memWrite c a bs) (fun q => p.Answers q c (p1.copyCheck c.fn a 64 true) 0 [])) ∧
      (a % 64 = 0 → bs.length % 64 = 0 → bs.length ≤ 4088 → (∀ i, 64 * i < bs.length → p1.copyCheck c.fn (a + 64 * i) 64 true = 0 ∧ inCtl (a + 64 * i) = false) →
        s.gives (.memWrite c a bs) (fun q => q.Replied c stOK fun r _ _ => p1.Stored r (bs.mapIdx fun i b => (a + i, b))))) ∧
    (∀ src dst n : Nat, p.Passes c 17 → 0 < n →
      (inHbm src = false ∨ p1.inPin dst = false → s.gives (.preload c src dst n) (fun q => p.Answers q c fAddrRange 0 [])) ∧
      (inHbm src = true → inHbm (src + n - 1) = true → p1.inPin dst = true → p1.inPin (dst + n - 1) = true → p1.copyCheck c.fn src n false = 0 →
        (p1.copyCheck c.fn dst n true ≠ 0 → s.gives (.preload c src dst n) (fun q => p.Answers q c (p1.copyCheck c.fn dst n true) 0 [])) ∧
        (p1.copyCheck c.fn dst n true = 0 → s.gives (.preload c src dst n) (fun q => q.Replied c stOK fun r _ _ =>
          p1.Stored r ((p1.bytesAt src n).mapIdx fun i b => (dst + i, b)))))) ∧
    (∀ (m i : Nat) (e : W64), p.Passes c 20 → m % 64 = 0 → inCtl m = true → inCtl (m + 64 + 8 * i + 7) = true →
      homeSlice m = homeSlice (m + 64 + 8 * i + 7) → p1.copyCheck c.fn m 64 true = 0 → p1.copyCheck c.fn (m + 64 + 8 * i) 8 true = 0 →
      p1.claimed m 64 = false → p1.claimed (m + 64 + 8 * i) 8 = false → s.gives (.pmapUpdate c m i [e]) (fun q => q.Replied c stOK fun r _ _ =>
        r = (((p1.readRange (lineOf m) 256).1.readRange (lineOf (m + 64 + 8 * i)) 256).1.storeRange (m + 64 + 8 * i) (leBytes 8 e.toNat)).storeRange m (leBytes 4 (max (leNat (p1.shown m 4)) (i + 1))))) ∧
    (∀ a n : Nat, p.Passes c 23 → 0 < n →
      (p1.hbmIn a = false → s.gives (.stepLoad c a n) (fun q => p.Answers q c fAddrRange 0 [])) ∧
      (p1.hbmIn a = true → p1.hbmIn (a + n - 1) = true → p1.granted 0 a n false = false →
        s.gives (.stepLoad c a n) (fun q => p.Answers q c fAccessDenied 0 [])) ∧
      (p1.hbmIn a = true → p1.hbmIn (a + n - 1) = true → p1.granted 0 a n false = true →
        let bs := p1.bytesAt a n
        (digestOk bs = false → s.gives (.stepLoad c a n) (fun q => q.Replied c stImageDigest fun r _ _ => r.step.staged = none)) ∧
        (digestOk bs = true → (leAt bs 0 2 ≠ 1 ∨ leAt bs 4 4 = 0 ∨ n < 256) →
          s.gives (.stepLoad c a n) (fun q => q.Replied c stImageInvalid fun r _ _ => r.step.staged = none)) ∧
        (digestOk bs = true → leAt bs 0 2 = 1 → leAt bs 4 4 ≠ 0 → 256 ≤ n → s.gives (.stepLoad c a n) (fun q => q.Replied c stOK fun r detail _ =>
          detail = leAt bs 4 4 ∧ r.step.staged = some (imageOf a bs) ∧ r.rd TICK_IMAGE_STAGED_ID = leAt bs 4 4)))) ∧
    (∀ id : W32, p.Passes c 24 →
      ((∀ im, p.step.staged = some im → im.id ≠ id.toNat) → s.gives (.stepActivate c id) (fun q => p.Answers q c stBadState 0 [])) ∧
      (∀ im, p.step.staged = some im → im.id = id.toNat →
        (p1.imageBad im = true → s.gives (.stepActivate c id) (fun q => p.Answers q c stImageInvalid 0 [])) ∧
        (p1.imageBad im = false → p1.schedBad im = true → s.gives (.stepActivate c id) (fun q => p.Answers q c stSchedInvalid 0 [])) ∧
        (p1.imageBad im = false → p1.schedBad im = false → s.gives (.stepActivate c id) (fun q => q.step.activate = some c ∧
          ∀ t, t < 3072 → (q.router t).staging = some (p1.schedule im t))))) ∧
    (p.Passes c 25 → s.gives (.stepHalt c) (fun q => q.Replied c stOK fun r _ _ => r = { p1 with tick := { p1.tick with haltReq := true } })) ∧
    (p.Passes c 26 → s.gives (.stepResume c) (fun q => q.Replied c stOK fun r _ _ => r = { p1 with tick := { p1.tick with resumeReq := true } })) ∧
    (∀ v : SeqParams, p.Passes c 27 → let a := p1.seqBase + 32 * v.slot
      (p.step.active = none → s.gives (.seqWrite c v) (fun q => p.Answers q c stBadState 0 [])) ∧
      (p.step.active ≠ none → 4095 < v.slot → s.gives (.seqWrite c v) (fun q => p.Answers q c stBadParam 0 [])) ∧
      (p.step.active ≠ none → v.slot ≤ 4095 → v.pmapPtr < 2 ^ 48 → v.statePtr < 2 ^ 48 → c.cls ≠ .t → (v.vf = 0 ∨ p1.inSeqRange v.vf v.slot = true) →
        p1.claimed a 32 = false → s.gives (.seqWrite c v) (fun q => q.Replied c stOK fun r _ _ =>
          let w (i : Nat) : W64 := BitVec.ofNat 64 (leNat (p1.shown (a + 8 * i) 8))
          r = (p1.readRange (lineOf a) 256).1.storeRange a (seqMerge v (w 0) (w 1) (w 2))))) ∧
    (∀ first n : Nat, p.Passes c 28 →
      (p.step.active = none → s.gives (.seqRead c first n) (fun q => p.Answers q c stBadState 0 [])) ∧
      (p.step.active ≠ none → 0 < n → n ≤ 128 → first + n ≤ 4096 → c.cls ≠ .t → s.gives (.seqRead c first n) (fun q =>
        let b := (p1.shown (p1.seqBase + 32 * first) (32 * n)).take c.outLen
        q.Replied c stOK fun r d bs => d = b.length ∧ bs = b ∧ ∀ x, r.byteAt x = p1.byteAt x)))

/-- For every live part and packet that passes the Husk's checks. POWER_LIMIT sets the limit, at most its ceiling, and the window, 1 to 10 ms. POWER_MODE
of another mode takes effect at the next boundary, or the one after inside a guard window. REPAIR: an action that does not fit its unit gets
BAD_PARAM. A tile's self-test resets the tile and starts the test; its map-out and its un-map, the retirement of a pod, a region or a die wait for a
boundary, and get BAD_STATE or NO_RESOURCE when the unit is out already, waits, or has no free spare. A slice starts its clean. A join is marked once. (spec/15_symbite_commands.md; spec/17_power_thermal.md; spec/18_reliability_repair.md; spec/01_organisation.md) -/
def Obligations.LimitsAndRepairCommands : Prop :=
  ∀ (s : State) (c : Issue), s.live →
    let p := s.part
    let p1 := p.counted c
    (∀ w n : Nat, p.Passes c 36 → s.gives (.powerLimit c w n) (fun q => q.Replied c stOK fun r _ _ =>
      r.rd PWR_CFG_LIMIT_W = min (min w 4095) (p1.rd HUSK_CEIL_LIMIT_W) ∧ r.rd PWR_CFG_WINDOW_MS = min (max n 1) 10 ∧
      (p1.rd HUSK_CEIL_LIMIT_W < min w 4095 → r.rd PWR_EVENTS_CEILING = 1) ∧ r.rd PWR_CFG_MODE = p1.rd PWR_CFG_MODE)) ∧
    (∀ on : Bool, p.Passes c 37 → s.gives (.powerMode c on) (fun q => q.Replied c stOK fun r _ _ => r.rd PWR_CFG_MODE = b2n on ∧
      r.rd PWR_CFG_LIMIT_W = p1.rd PWR_CFG_LIMIT_W ∧
      r.power.modeNext = if p1.rd PWR_CFG_MODE = b2n on then p.power.modeNext else some (p1.tickNo + (if p.tick.phase = .guard then 2 else 1), on))) ∧
    (∀ kind unit action join : Nat, p.Passes c 39 → repairOk kind unit action = false →
      s.gives (.repair c kind unit action join) (fun q => p.Answers q c stBadParam 0 [])) ∧
    (∀ t j : Nat, p.Passes c 39 → t < 3072 →
      let d := dieOf t
      let row := rowOf t
      ((p.tile t).testing = true ∨ (p.tile t).work ≠ .idle → s.gives (.repair c 1 t 1 j) (fun q => p.Answers q c stBadState 0 [])) ∧
      ((p.tile t).testing = false → (p.tile t).work = .idle → s.gives (.repair c 1 t 1 j) (fun q => (q.tile t).testing = true ∧
        (q.tile t).inReset = true ∧ q.repair.tests = p.repair.tests ++ [(t, c)] ∧ q.host = p1.host)) ∧
      (p.mapOutWaits t = true → s.gives (.repair c 1 t 2 j) (fun q => p.Answers q c stBadState 0 [])) ∧
      (p.mapOutWaits t = false → p.spareFree d row = false → s.gives (.repair c 1 t 2 j) (fun q => p.Answers q c stNoResource 0 [])) ∧
      (p.spareFree d row = true → s.gives (.repair c 1 t 2 j) (fun q =>
        q.repair.pending = p.repair.pending ++ [.bypass d row (p.physColOf t) t (some c)] ∧ q.tiles = p.tiles ∧ q.host = p1.host)) ∧
      (p.bypassAt d row = 8 ∨ p.bypassNext d row ≠ none → s.gives (.repair c 1 t 3 j) (fun q => p.Answers q c stBadState 0 [])) ∧
      (p.bypassAt d row ≠ 8 → p.bypassNext d row = none → s.gives (.repair c 1 t 3 j) (fun q =>
        q = { p1 with repair := { p.repair with pending := p.repair.pending ++ [.bypass d row 8 t (some c)] } }))) ∧
    (∀ n j : Nat, p.Passes c 39 →
      (n < 192 → (inMask p.repair.retiredPods n = true ∨ ∃ x ∈ p.repair.pending, ∃ y, x = .pod n y) →
        s.gives (.repair c 2 n 4 j) (fun q => p.Answers q c stBadState 0 [])) ∧
      (n < 192 → inMask p.repair.retiredPods n = false → (∀ x ∈ p.repair.pending, ∀ y, x ≠ .pod n y) → s.gives (.repair c 2 n 4 j) (fun q =>
        q = { p1 with repair := { p.repair with pending := p.repair.pending ++ [.pod n (some c)] } })) ∧
      (n < 48 → (regionPods n).all (inMask p.repair.retiredPods) = false → (∀ x ∈ p.repair.pending, ∀ y, x ≠ .region n y) →
        s.gives (.repair c 3 n 4 j) (fun q => q = { p1 with repair := { p.repair with pending := p.repair.pending ++ [.region n (some c)] } })) ∧
      (n < 12 → p.repair.retiredDies.getLsbD n = false → (∀ x ∈ p.repair.pending, ∀ y, x ≠ .die n y) → s.gives (.repair c 4 n 4 j) (fun q =>
        q = { p1 with repair := { p.repair with pending := p.repair.pending ++ [.die n (some c)] } })) ∧
      (n < 256 → p1.rd LLC_STATUS_STATE n ≠ 0 → s.gives (.repair c 6 n 5 j) (fun q => p.Answers q c stBadState 0 [])) ∧
      (n < 256 → p1.rd LLC_STATUS_STATE n = 0 → s.gives (.repair c 6 n 5 j) (fun q => p1.Cleaning q (.remap n) c ∧ q.rd LLC_STATUS_STATE n = 1)) ∧
      (∀ kind, kind = ukBridge ∨ kind = ukBond →
        ((kind, j) ∈ p.repair.joins → s.gives (.repair c kind n 6 j) (fun q => p.Answers q c stBadState 0 [])) ∧
        ((kind, j) ∉ p.repair.joins → s.gives (.repair c kind n 6 j) (fun q => q.Replied c stOK fun r _ _ => r.repair.joins = p.repair.joins ++ [(kind, j)]))))

/-- For every live part. FW_LOAD puts its bytes into the update buffer; FW_ACTIVATE of an object that verifies takes it into use and empties the buffer of
any other with AUTH_FAIL; both get BAD_STATE while a region is written. SLOT_WRITE_DONE ends that write: the region holds the object, or is damaged.
FW_RESUME ends a switch: FW_ACTIVATE completes with the new version. FW_RESUME_TIMEOUT restarts every context 50 ms after a switch without resume.
KICK in time and WATCHDOG_EXPIRY set and end a context's time. A control-core access outside the granting ranges loads zero, stores nothing and fires
the watchdog; a granted one reads and writes registers, memory and arrays. (spec/19_boot_identity_husk.md; spec/18_reliability_repair.md; spec/15_symbite_commands.md) -/
def Obligations.FirmwareAndWatchdog : Prop :=
  ∀ (s : State), s.live →
    let p := s.part
    (∀ (c : Issue) (o : Nat) (bs : List Byte), p.Passes c 42 →
      let p1 := p.counted c
      (p1.rd HUSK_FW_STATUS_SLOT_STATE = 1 → s.gives (.fwLoad c o bs) (fun q => p.Answers q c stBadState 0 [])) ∧
      (p1.rd HUSK_FW_STATUS_SLOT_STATE ≠ 1 → (o % 8 ≠ 0 ∨ 0x1000000 < o + bs.length) → s.gives (.fwLoad c o bs) (fun q => p.Answers q c stBadParam 0 [])) ∧
      (p1.rd HUSK_FW_STATUS_SLOT_STATE ≠ 1 → o % 8 = 0 → o + bs.length ≤ 0x1000000 → s.gives (.fwLoad c o bs) (fun q => q.Replied c stOK fun r _ _ =>
        r.rd HUSK_FW_STATUS_BUF_STATE = 1 ∧ r.rd HUSK_FW_STATUS_BUF_BYTES = max (if o = 0 then 0 else p1.rd HUSK_FW_STATUS_BUF_BYTES) (o + bs.length) ∧
        (∀ i, i < bs.length → mget 0 r.boot.updBuf (o + i) = bs.getD i 0) ∧
        ∀ i, (i < o ∨ o + bs.length ≤ i) → mget 0 r.boot.updBuf i = if o = 0 then 0 else mget 0 p.boot.updBuf i))) ∧
    (∀ c : Issue, p.Passes c 43 →
      let p1 := p.counted c
      let obj := p1.updBytes
      let good := s.serial.verify p.boot.cfg.minFw obj = true ∧ (leAt obj 0 2 = 2 → p1.rd HUSK_STATUS_CFG_SEQ < leAt obj 4 4)
      let busy := p1.rd HUSK_FW_STATUS_SLOT_STATE = 1 ∨ p.repair.fwIssue ≠ none ∨ p.boot.slotIssue ≠ none
      (busy → s.gives (.fwActivate c) (fun q => p.Answers q c stBadState 0 [])) ∧
      (¬ busy → ¬ good → s.gives (.fwActivate c) (fun q => q.Replied c stAuthFail fun r _ _ =>
        r.rd HUSK_FW_STATUS_BUF_STATE = 3 ∧ r.rd HUSK_FW_STATUS_BUF_BYTES = 0 ∧ r.boot.updBuf = [])) ∧
      (¬ busy → good → leAt obj 0 2 = 1 → s.gives (.fwActivate c) (fun q => q.rd HUSK_FW_STATUS_BUF_STATE = 2 ∧ q.repair.fwIssue = some c ∧
        q.repair.fwNewVersion = leAt obj 4 4 ∧ q.host = p1.host)) ∧
      (¬ busy → good → leAt obj 0 2 ≠ 1 → s.gives (.fwActivate c) (fun q => q.rd HUSK_FW_STATUS_BUF_STATE = 2 ∧ q.boot.slotIssue = some c ∧
        q.rd HUSK_FW_STATUS_SLOT_STATE = 1 ∧ q.host = p1.host))) ∧
    (∀ ok : Bool,
      (p.rd HUSK_FW_STATUS_SLOT_STATE ≠ 1 → exec (.slotWriteDone ok) s = .next s) ∧
      (p.rd HUSK_FW_STATUS_SLOT_STATE = 1 → ∃ q, exec (.slotWriteDone ok) s = .next { s with
          part := q, serial := if ok = true then s.serial.write p.updBytes else s.serial.damage (p.rd HUSK_FW_STATUS_BUF_TYPE) } ∧
        q.boot.slotIssue = none ∧ q.rd HUSK_FW_STATUS_SLOT_STATE = (if ok = true then 0 else 2) ∧
        (if ok = true then q.rd HUSK_EVENTS_FW_SLOT_DONE = 1 else q.rd HUSK_EVENTS_FW_SLOT_FAILED = 1) ∧
        ∀ c, p.boot.slotIssue = some c → q.Replied c stOK fun _ detail data => detail = 0 ∧ data = [])) ∧
    (∀ now : Nat, (p.repair.fwOld = false → s.gives (.fwResume now) (fun q => q = p)) ∧
      (p.repair.fwOld = true → s.gives (.fwResume now) (fun q => q.repair.fwOld = false ∧ q.repair.fwIssue = none ∧
        q.rd GLOBAL_REPAIR_STATUS_FW_SWITCH = 0 ∧ q.rd HUSK_FW_STATUS_LIVE_UPDATES = min (p.rd HUSK_FW_STATUS_LIVE_UPDATES + 1) 255 ∧
        (p.repair.fwNewVersion < 2 ^ 32 → q.rd GLOBAL_REPAIR_STATUS_FW_VERSION = p.repair.fwNewVersion) ∧
        ∀ c, p.repair.fwIssue = some c → q.Replied c stOK fun _ detail _ => detail = p.repair.fwNewVersion)) ∧
      (p.repair.fwOld = false ∨ max now p.now < p.repair.fwSince + ms 50 → s.gives (.fwResumeTimeout now) (fun q => q = p)) ∧
      (p.repair.fwOld = true → p.repair.fwSince + ms 50 ≤ max now p.now → s.gives (.fwResumeTimeout now) (fun q => q.rd HUSK_EVENTS_WDOG_FIRED = 1 ∧
        q.rd HUSK_WDOG_RESTARTS = min (p.rd HUSK_WDOG_RESTARTS + 16) 65535 ∧ ∀ i, i < 16 → mget 0 q.boot.kicks i = q.now))) ∧
    (∀ (x : CtxId) (now : Nat),
      (p.ctxRuns x = true → p.ctxLimit x ≤ max p.now now → s.gives (.kick x now) (fun q => q = { p with now := max p.now now })) ∧
      (p.ctxRuns x = false ∨ max p.now now < p.ctxLimit x → s.gives (.kick x now) (fun q => q.ctxRuns x = true ∧ mget 0 q.boot.kicks x = q.now ∧
        q.now = max p.now now)) ∧
      (p.ctxRuns x = false ∨ max now p.now < p.ctxLimit x → s.gives (.watchdogExpiry x now) (fun q => q = p)) ∧
      (p.ctxRuns x = true → p.ctxLimit x ≤ max now p.now → s.gives (.watchdogExpiry x now) (fun q => q.rd HUSK_EVENTS_WDOG_FIRED = 1 ∧
        q.rd HUSK_WDOG_LAST_CTX = x.val ∧ mget 0 q.boot.kicks x = q.now))) ∧
    (∀ (x : CtxId) (a n : Nat), p.stage = 7 → 0 < n →
      let p0 := p.ctxStarts x
      (p0.fwGranted false a n = false → s.gives (.controlCoreLoadStore x false a n []) (fun q => q.rd HUSK_EVENTS_MEM_VIOLATION = 1 ∧
        .coreData x (some (List.replicate n 0)) ∈ q.out ∧ ∀ b, q.byteAt b = p.byteAt b)) ∧
      (p0.fwGranted false a n = true →
        (∀ v q', inCs a = true → p0.csRead (a - csBase) n = some (v, q') → s.gives (.controlCoreLoadStore x false a n []) (fun q =>
          q = q'.emit (.coreData x (some (leBytes n v.toNat))))) ∧
        (∀ t o, inCs a = false → p0.arrayAt a n = some (t, o) → s.gives (.controlCoreLoadStore x false a n []) (fun q =>
          q = p0.emit (.coreData x (some ((List.range n).map fun i => mget 0 (p.tile t).arr (o + i)))))) ∧
        (inCs a = false → p0.arrayAt a n = none → p0.hasHome a = true → p0.hasHome (a + n - 1) = true → p.Sound →
          s.gives (.controlCoreLoadStore x false a n []) (fun q => .coreData x (some (p0.shown a n)) ∈ q.out ∧ ∀ b, q.byteAt b = p.byteAt b)))) ∧
    (∀ (x : CtxId) (a : Nat) (bs : List Byte), p.stage = 7 → bs ≠ [] →
      let p0 := p.ctxStarts x
      (p0.fwGranted true a bs.length = false ∨ inHusk a bs.length = true → s.gives (.controlCoreLoadStore x true a 0 bs) (fun q =>
        q.rd HUSK_EVENTS_MEM_VIOLATION = 1 ∧ ∀ b, q.byteAt b = p.byteAt b)) ∧
      (p0.fwGranted true a bs.length = true → inHusk a bs.length = false →
        (∀ q', inCs a = true → p0.csWrite (a - csBase) bs.length (BitVec.ofNat 64 (leNat bs)) = some q' →
          s.gives (.controlCoreLoadStore x true a 0 bs) (fun q => q = q')) ∧
        (∀ t o, inCs a = false → p0.arrayAt a bs.length = some (t, o) → s.gives (.controlCoreLoadStore x true a 0 bs) (fun q =>
          (∀ i, i < bs.length → mget 0 (q.tile t).arr (o + i) = bs.getD i 0) ∧ ∀ i, (i < o ∨ o + bs.length ≤ i) → mget 0 (q.tile t).arr i = mget 0 (p.tile t).arr i)) ∧
        (inCs a = false → p0.arrayAt a bs.length = none → p0.hasHome a = true → p0.hasHome (a + bs.length - 1) = true →
          s.gives (.controlCoreLoadStore x true a 0 bs) (fun q => q = p0.storeRange a bs))))

/-- For every live part. FAST_THROTTLE_CHECK: a rail over its limit throttles, with its time, every region it feeds, whose issue cap is then at most 8; a
rail that is over already keeps its time; one below the limit is over no more, and the time below 90 percent runs. VR_ALERT throttles the tuber's VTB
rail. THROTTLE_STRETCH after 1 us over stretches the regions; THROTTLE_END after 10 us low ends the throttle. DROOP_TRIP stretches its region and
counts; the eighth trip within 1 ms bars it from boost for 10 ms; DROOP_RECOVERY and BOOST_BAR_END end these. A failure of a region's clock or droop
detector resets its tiles and lets its retirement wait; the loss of a control complex is fatal. (spec/17_power_thermal.md; spec/18_reliability_repair.md; notes/assumptions/51.md (VR_ALERT as the VTB rail is the model's reading)) -/
def Obligations.ThrottleAndDroop : Prop :=
  ∀ (s : State) (now : Nat), s.live →
    let p := s.part
    let T := max p.now now
    (∀ (n : Fin 16) (dA : Nat),
      let limit := p.rd PWR_RAIL0_LIMIT_DA 0 n
      let x := p.rail n
      (limit < dA → x.beyond = none → x.on = false → s.gives (.fastThrottleCheck [(n, dA)] now) (fun q => q.rail n = { on := true, beyond := some T } ∧
        q.rd PWR_EVENTS_FAST_THROTTLE = 1 ∧ q.rd PWR_RAIL1_ALERTS 0 n = min (p.rd PWR_RAIL1_ALERTS 0 n + 1) (65535) ∧
        ∀ r, r < 48 → feeds n r = true → q.throttled r = true ∧ q.rd RGN_CLK_CAP r ≤ 8)) ∧
      (limit < dA → x.beyond ≠ none → s.gives (.fastThrottleCheck [(n, dA)] now) (fun q => q = { p with now := T })) ∧
      (dA ≤ limit → x.on = false → s.gives (.fastThrottleCheck [(n, dA)] now) (fun q => q = { p with now := T })) ∧
      (dA ≤ limit → x.on = true → s.gives (.fastThrottleCheck [(n, dA)] now) (fun q =>
        q.rail n = { x with beyond := none, low := if 10 * dA < 9 * limit then some (x.low.getD T) else none } ∧ q.ctl = p.ctl)) ∧
      (x.beyond = none ∨ (∃ o, x.beyond = some o ∧ max now p.now < o + us 1) → s.gives (.throttleStretch n now) (fun q => q = p)) ∧
      (∀ o, x.beyond = some o → o + us 1 ≤ max now p.now → s.gives (.throttleStretch n now) (fun q => q.rail n = { x with stretch := true } ∧
        (x.on = true → ∀ r, r < 48 → feeds n r = true → q.rd RGN_CLK_STRETCH r = 1))) ∧
      (x.low = none ∨ (∃ l, x.low = some l ∧ max now p.now < l + us 10) → s.gives (.throttleEnd n now) (fun q => q = p)) ∧
      (∀ l, x.low = some l → l + us 10 ≤ max now p.now → s.gives (.throttleEnd n now) (fun q => q.rail n = {} ∧
        ∀ r, r < 48 → feeds n r = true → q.throttled r = false → (q.region r).crit = false → q.rd RGN_CLK_CAP r = min p.power.caps 16))) ∧
    (∀ t : TuberId, let x := p.rail (12 + t.val)
      (x.on = false → s.gives (.vrAlert t now) (fun q => q.rail (12 + t.val) = { on := true, beyond := some T } ∧
        ∀ r, r < 48 → r / 12 = t.val → q.throttled r = true ∧ q.rd RGN_CLK_CAP r ≤ 8)) ∧
      (x.on = true → s.gives (.vrAlert t now) (fun q => q.rail (12 + t.val) = { x with beyond := some (x.beyond.getD T), low := none }))) ∧
    (∀ r : RegionId,
      let g := p.region r
      let n := (g.trips.filter fun t => T < t + ms 1).length
      s.gives (.droopTrip r now) (fun q => (q.region r).droop = true ∧ q.rd RGN_CLK_STRETCH r = 1 ∧ q.rd PWR_EVENTS_DROOP = 1 ∧
        q.rd RGN_EVENTS_COUNT_DROOPS r = min (p.rd RGN_EVENTS_COUNT_DROOPS r + 1) (2 ^ 32 - 1) ∧
        (n < 7 → (q.region r).barred = g.barred ∧ (q.region r).trips.length = n + 1) ∧
        (7 ≤ n → (q.region r).barred = true ∧ (q.region r).barEnd = T + ms 10 ∧ (q.region r).trips = [])) ∧
      s.gives (.droopRecovery r now) (fun q => q.region r = { g with droop := false } ∧ q.rd RGN_CLK_STRETCH r = b2n (p.throttleStretched r)) ∧
      (g.barred = true → g.barEnd ≤ T → s.gives (.boostBarEnd r now) (fun q => q.region r = { g with barred := false } ∧ q.ctl = p.ctl)) ∧
      (g.barred = false ∨ T < g.barEnd → s.gives (.boostBarEnd r now) (fun q => q = p)) ∧
      ((regionPods r).all (inMask p.repair.retiredPods) = true → s.gives (.regionClockOrDroopFailure r now) (fun q => q = p)) ∧
      ((regionPods r).all (inMask p.repair.retiredPods) = false → s.gives (.regionClockOrDroopFailure r now) (fun q =>
        q.repair.pending = p.repair.pending ++ [.region r none] ∧ ∀ n ∈ regionPods r, ∀ t ∈ podTiles n, (q.tile t).inReset = true))) ∧
    (∀ t : TuberId, s.gives (.controlComplexLoss t now) (fun q => q.fatal = true ∧ q.mgmt.alive = false ∧
      (t ≠ 0 → 0 < p.rd GLOBAL_INV_TUBERS_EN → q.rd GLOBAL_INV_TUBERS_EN = p.rd GLOBAL_INV_TUBERS_EN - 1)))

/-- For every live part. After PACKAGE_LOOP, RAIL_SETTLED, HINT_RAISE, AGEING_CHECK and THERMAL_READ every region's clock is at least 1.25 GHz and at most
what target, package loop, temperature and boost limits leave it, and every VCD target is within 0.65 to 0.90 V, or 0 for a retired die. PACKAGE_LOOP
shows the estimate and moves the issue caps by one sixteenth. CALIBRATION shows the readings and brings the gain to the clipped value of its rule,
rounded either way. THERMAL_READ shows the temperatures; a sensor at T_CRIT brings its regions to 1.25 GHz and asserts THERM_ALERT_N, one at T_TRIP
trips the part. AGEING_CHECK raises a trim by 2.5 mV below the floor. (spec/17_power_thermal.md; spec/18_reliability_repair.md; notes/assumptions/52.md (the gain's rounding is a free value)) -/
def Obligations.ClocksRailsAndTemperatures : Prop :=
  ∀ (s : State) (now : Nat), s.live →
    let p := s.part
    (∀ (est rise : Nat) (order : List RegionId),
      let limit := p.rd PWR_CFG_LIMIT_W
      s.gives (.packageLoop est rise order now) (fun q => q.Settled ∧ q.rd PWR_STATUS_EST_W = min est 4095 ∧
        (limit < est + rise → q.rd PWR_EVENTS_LIMIT = 1 ∧
          q.power.caps = if ∀ r, r < 48 → p.regionClock r ≤ 1 then max 4 (p.power.caps - 1) else p.power.caps) ∧
        (est + rise ≤ limit → q.power.caps =
          if est + rise + p.rd PWR_CFG_BOOST_MARGIN_W ≤ limit ∧ p.power.caps < 16 then p.power.caps + 1 else p.power.caps))) ∧
    (∀ (n : Fin 16) (mv : Nat), s.gives (.railSettled n mv) (fun q => q.Settled ∧ q.dieMv n = mv ∧ q.tiles = p.tiles)) ∧
    (∀ (n : PodId) (l : Fin 4),
      s.gives (.hintRaise n l false) (fun q => q.Settled ∧ q.podLevel n = 1) ∧
      ((∃ h ∈ p.hintSet, getB h 0 8 = n.val ∧ getB h 8 2 = l.val) → s.gives (.hintRaise n l true) (fun q => q.Settled ∧ q.podLevel n = l.val)) ∧
      ((∀ h ∈ p.hintSet, ¬ (getB h 0 8 = n.val ∧ getB h 8 2 = l.val)) → s.gives (.hintRaise n l true) (fun q => q = p))) ∧
    (∀ (n : RailId) (mv dA est w : Nat), s.gives (.calibration [(n, mv, dA, est)] w now) (fun q =>
      q.rd PWR_STATUS_MEAS_W = min w 4095 ∧ q.rd PWR_RAIL0_VOLT_MV 0 n = min mv 4095 ∧ q.rd PWR_RAIL0_CURR_DA 0 n = min dA 4095 ∧
      (n.val < 16 → 0x3000 ≤ q.rd PWR_RAIL1_CAL_GAIN 0 n ∧ q.rd PWR_RAIL1_CAL_GAIN 0 n ≤ 0x5000 ∧
        (0 < est → ∃ up, let g := calGain (p.rd PWR_RAIL1_CAL_GAIN 0 n) (mv * dA) est up
          q.rd PWR_RAIL1_CAL_GAIN 0 n = max 0x3000 (min 0x5000 g) ∧ (g < 0x3000 ∨ 0x5000 < g → q.rd PWR_EVENTS_CAL_RANGE = 1))) ∧
      (16 ≤ n.val → p.rd PWR_RAIL0_LIMIT_DA 0 n < dA → q.rd PWR_EVENTS_RAIL_ALARM = 1))) ∧
    (∀ (rt : List (RegionId × Nat × Nat)) (tt : List (TuberId × List Nat)),
      let all := rt.flatMap (fun c => [c.2.1, c.2.2]) ++ tt.flatMap (·.2)
      s.gives (.thermalRead rt tt now) (fun q => q.Settled ∧ q.rd PWR_STATUS_HOTTEST_C = min 255 (all.foldl max 0) ∧
        (∀ r a b, rt = [(r, a, b)] → q.rd RGN_PWR_TEMP0_C r = min 255 a ∧ q.rd RGN_PWR_TEMP1_C r = min 255 b) ∧
        (∀ r, r < 48 → (∃ x ∈ critSensors rt tt r, p.rd PWR_THERM_T_CRIT ≤ x) → (q.region r).crit = true ∧ q.regionClock r = 1 ∧
          q.mgmt.thermAlertN = false) ∧
        ((∃ x ∈ all, p.rd PWR_THERM_T_TRIP ≤ x) → q.mgmt.thermTripN = false ∧ q.fatal = true ∧ ∀ i, i < 18 → q.rd BLK_STATUS_STATE i = 0) ∧
        ((∀ x ∈ all, x < p.rd PWR_THERM_T_TRIP) → q.mgmt.thermTripN = p.mgmt.thermTripN))) ∧
    (∀ (r : RegionId) (slack : Nat), let old := p.rd RGN_TRIM_TRIM_MV r
      s.gives (.ageingCheck [(r, slack)] now) (fun q => q.Settled ∧ q.rd RGN_TRIM_SLACK_PS r = min slack 65535 ∧
        q.rd RGN_TRIM_TRIM_MV r = if p.boot.cfg.slackFloor ≤ slack ∨ 100 ≤ old then old else min 100 (old + 5)))

/-- For every live part. REFRESH shows the temperature and doubles the rate above 85 C. PATROL_SCRUB of a line in service that is not dead counts a
corrected error, or counts, captures and poisons an uncorrectable sector, and changes no byte. ROW_COPY_DONE moves the row to its spare. HBM_RESET,
CALIBRATE, LANE, REPAIR and TEST follow one another to service; a stack that fails any of them is out, the part on the 552 GiB map; out of turn
nothing happens. STACK_LOST of a stack in service takes it out; a second is fatal. MIGRATION_START waits until the shed range is free. MIGRATION_BLOCK
moves one block. TG_START runs a generator only in TEST; TG_DONE counts and captures. (spec/12_hbm.md; spec/18_reliability_repair.md) -/
def Obligations.HbmRefreshScrubAndStacks : Prop :=
  ∀ (s : State) (h : StackId), s.live →
    let p := s.part
    let st := p.rd HBM_STATUS_STATE h
    (∀ temp : Nat, (st = 0 → s.gives (.refresh h temp) (fun q => q = p)) ∧
      (st ≠ 0 → s.gives (.refresh h temp) (fun q => q.rd HBM_STATUS_TEMP h = min 255 temp ∧ q.rd HBM_STATUS_REFRESH_2X h = b2n (decide (85 < temp)) ∧
        q.rd HBM_STATUS_STATE h = st))) ∧
    (∀ (l : Nat) (e : EccErr) (k : Fin 4) (last : Bool), lineOf l = l →
      let z := p.channelOf l / 32
      let x := l + 64 * k.val
      (p.hbmIn l = false ∨ p.isDead l = true ∨ p.rd HBM_CFG_SCRUB_HOURS = 0 ∨ (p.rd HBM_STATUS_STATE z ≠ 2 ∧ p.rd HBM_STATUS_STATE z ≠ 3) →
        s.gives (.patrolScrub l e k last) (fun q => q = p)) ∧
      (p.hbmIn l = true → p.isDead l = false → p.rd HBM_CFG_SCRUB_HOURS ≠ 0 → p.rd HBM_STATUS_STATE z = 2 ∨ p.rd HBM_STATUS_STATE z = 3 → p.poison = [] →
        p.hbm.marks = [] → s.gives (.patrolScrub l e k last) (fun q => (∀ a, q.byteAt a = p.byteAt a) ∧ q.tiles = p.tiles ∧
          (e = .ce → q.rd HBM_ECC_CE z = min (p.rd HBM_ECC_CE z + 1) (2 ^ 32 - 1) ∧ q.poison = []) ∧
          (e = .ue → q.rd HBM_EVENTS_UE z = 1 ∧ (x ∈ q.poison ∨ x ∈ q.hbm.marks)) ∧
          (last = true → q.rd HBM_EVENTS_SCRUB_DONE z = 1)))) ∧
    (∀ pc row : Nat, pc < 768 →
      ((pc, row) ∉ p.hbm.copying → s.gives (.rowCopyDone pc row) (fun q => q = p)) ∧
      ((pc, row) ∈ p.hbm.copying → s.gives (.rowCopyDone pc row) (fun q => (pc, row) ∉ q.hbm.copying ∧ q.hbm.remap = p.hbm.remap ++ [(pc, row)] ∧
        q.rd HBM_EVENTS_ROW_REMAPPED (pc / 32) = 1))) ∧
    (let n := mget 0 p.hbm.train h
     let out (q : Part) : Prop := q.rd HBM_STATUS_STATE h = 6 ∧ q.rd HBM_EVENTS_STACK_LOST h = 1 ∧ mget 0 q.hbm.train h = 0 ∧
       (p.hbm.lost = none → q.hbm.lost = some h.val ∧ q.hbm.map736 = true ∧ q.rd HBM_MIGRATE_STATE = 3) ∧ (p.hbm.lost ≠ none → q.fatal = true)
     (p.stage = 7 → st = 0 → p.hbm.lost ≠ some h.val → n = 0 → s.gives (.hbmReset h true) (fun q => q.rd HBM_STATUS_STATE h = 1 ∧ mget 0 q.hbm.train h = 1)) ∧
     (p.stage = 7 → st = 0 → p.hbm.lost ≠ some h.val → n = 0 → s.gives (.hbmReset h false) out) ∧
     (p.stage ≠ 7 ∨ st ≠ 0 ∨ n ≠ 0 ∨ p.hbm.lost = some h.val → ∀ ok, s.gives (.hbmReset h ok) (fun q => q = p)) ∧
     (n = 1 → s.gives (.hbmCalibrate h true) (fun q => q = { p with hbm := { p.hbm with train := mput 0 p.hbm.train h 2 } })) ∧
     (n = 1 → s.gives (.hbmCalibrate h false) out) ∧
     (n = 2 → s.gives (.hbmLane h true) (fun q => q = { p with hbm := { p.hbm with train := mput 0 p.hbm.train h 3 } })) ∧
     (n = 2 → s.gives (.hbmLane h false) out) ∧
     (n = 3 → s.gives (.hbmRepair h true) (fun q => q.rd HBM_STATUS_STATE h = stTest ∧ q.rd HBM_STATUS_REMAP_MAX h = 0 ∧ mget 0 q.hbm.train h = 4 ∧
       ∀ r ∈ q.hbm.remap, r.1 / 32 ≠ h.val)) ∧
     (n = 3 → s.gives (.hbmRepair h false) out) ∧
     (n = 4 → s.gives (.hbmTest h true) (fun q => q.rd HBM_STATUS_STATE h = stInService ∧ mget 0 q.hbm.train h = 5)) ∧
     (n = 4 → s.gives (.hbmTest h false) out) ∧
     (∀ ok, (n ≠ 1 → s.gives (.hbmCalibrate h ok) (fun q => q = p)) ∧ (n ≠ 2 → s.gives (.hbmLane h ok) (fun q => q = p)) ∧
       (n ≠ 3 → s.gives (.hbmRepair h ok) (fun q => q = p)) ∧ (n ≠ 4 → s.gives (.hbmTest h ok) (fun q => q = p)))) ∧
    (∀ now : Nat,
      (st = 0 ∨ st = 4 ∨ st = 6 → s.gives (.stackLost h now) (fun q => q = p)) ∧
      (st ≠ 0 → st ≠ 4 → st ≠ 6 → p.hbm.evac = none → p.hbm.lost = none → s.gives (.stackLost h now) (fun q => q.rd HBM_STATUS_STATE h = 4 ∧
        q.rd HBM_EVENTS_STACK_LOST h = 1 ∧ q.hbm.lost = some h.val ∧ q.rd HBM_MIGRATE_LOST_STACK = h.val ∧ q.rd HBM_MIGRATE_STATE = 1 ∧ q.fatal = false)) ∧
      (st ≠ 0 → st ≠ 4 → st ≠ 6 → (p.hbm.evac ≠ none ∨ p.hbm.lost ≠ none) → s.gives (.stackLost h now) (fun q => q.rd HBM_STATUS_STATE h = 4 ∧
        q.fatal = true))) ∧
    (p.rd HBM_MIGRATE_STATE ≠ 1 ∨ p.shedUsed = true → s.gives .migrationStart (fun q => q = p)) ∧
    (p.rd HBM_MIGRATE_STATE = 1 → p.shedUsed = false → s.gives .migrationStart (fun q => q.rd HBM_MIGRATE_STATE = 2 ∧ q.rd HBM_MIGRATE_BLOCKS_DONE = 0 ∧
      q.hbm.moved = [])) ∧
    (p.rd HBM_MIGRATE_STATE ≠ 2 → s.gives .migrationBlock (fun q => q = p)) ∧
    (∀ b, p.rd HBM_MIGRATE_STATE = 2 → p.nextBlock = some b → p.hbm.moved.length + 1 < stayBlocks → s.gives .migrationBlock (fun q =>
      q.hbm.moved = p.hbm.moved ++ [b] ∧ q.rd HBM_MIGRATE_BLOCKS_DONE = min (p.rd HBM_MIGRATE_BLOCKS_DONE + 1) (2 ^ 20 - 1) ∧
      ∀ a, a / 0x100000 ≠ b → q.byteAt a = p.byteAt a)) ∧
    (∀ b, p.rd HBM_MIGRATE_STATE = 2 → p.nextBlock = some b → p.hbm.moved.length + 1 = stayBlocks → (∀ z c, p.hbm.evac = some (z, c) → z < 24) →
      s.gives .migrationBlock (fun q => q.hbm.map736 = true ∧ q.hbm.moved = [] ∧ q.rd HBM_MIGRATE_STATE = 3 ∧
      ∀ z c, p.hbm.evac = some (z, c) → p.hbm.lost = none → q.hbm.evac = none ∧ q.hbm.lost = some z ∧ q.Replied c stOK fun _ _ _ => True)) ∧
    (∀ ch : Fin 16,
      (st = stTest → s.gives (.tgStart h ch) (fun q => q.rd HBM_TG_CTL_BUSY h ch = 1)) ∧
      (st ≠ stTest → s.gives (.tgStart h ch) (fun q => q.rd HBM_EVENTS_TG_REFUSED h = 1 ∧ q.rd HBM_TG_CTL_BUSY h ch = p.rd HBM_TG_CTL_BUSY h ch)) ∧
      (∀ n m f, p.rd HBM_TG_CTL_BUSY h ch = 0 → s.gives (.tgDone h ch n m f) (fun q => q = p)) ∧
      (∀ n m f, p.rd HBM_TG_CTL_BUSY h ch = 1 → s.gives (.tgDone h ch n m f) (fun q => q.rd HBM_TG_CTL_BUSY h ch = 0 ∧ q.rd HBM_EVENTS_TG_DONE h = 1 ∧
        q.rd HBM_TG_RESULT_SECTORS h ch = min (p.rd HBM_TG_RESULT_SECTORS h ch + n) (2 ^ 32 - 1) ∧
        q.rd HBM_TG_RESULT_MISCOMPARES h ch = min (p.rd HBM_TG_RESULT_MISCOMPARES h ch + m) (65535) ∧
        (∀ w, f = some w → p.rd HBM_TG_FAIL_VALID h ch = 0 → q.reg reg_HBM_TG_FAIL h ch = setB w 31 1 1) ∧
        (p.rd HBM_TG_FAIL_VALID h ch = 1 → q.reg reg_HBM_TG_FAIL h ch = p.reg reg_HBM_TG_FAIL h ch))))

/-- For every live part and open repair of a block. GOLDEN_DATA of 4 KiB within the second stores the block, closes the repair and counts it; poisoned
data makes the repair try its next source, and wait when none is left; nothing happens for a repair that waits or whose time is over. SOURCE_LIMIT
turns to source 1 after 500 ms, REPAIR_RETRY starts over 10 ms after every source failed. WINDOW_DEGRADED one second after the first error marks the
window, counts the failure and closes the repair. Without a repair of the block none of them does anything. (spec/12_hbm.md; spec/18_reliability_repair.md) -/
def Obligations.WeightRepair : Prop :=
  ∀ (s : State) (b : Nat), s.live →
    let p := s.part
    (p.repairOf b = none → ∀ now, s.gives (.sourceLimit b now) (fun q => q = p) ∧ s.gives (.repairRetry b now) (fun q => q = p) ∧
      (∀ bs bad, s.gives (.goldenData b bs bad now) (fun q => q = p)) ∧
      ((∀ c ∈ p.hbm.waiting, c.1 ≠ b) → s.gives (.windowDegraded b now) (fun q => q = p))) ∧
    (∀ (r : BlockRepair) (now : Nat), p.repairOf b = some r → r.win < 64 →
      let T := max p.now now
      (∀ bs bad, (r.idle = true ∨ bs.length ≠ 4096 ∨ (r.t0 + repairLimit < T ∧ p.unmoved b = false)) → s.gives (.goldenData b bs bad now) (fun q => q = p)) ∧
      (∀ bs bad, r.idle = false → bs.length = 4096 → T ≤ r.t0 + repairLimit → (r.src = 0 → p.goldKindOf r.win 1 ≠ 0 → T ≤ r.since + ms 500) → bad = true → s.gives (.goldenData b bs bad now) (fun q =>
        (∃ r', q.repairOf b = some r' ∧ (if r.src = 0 ∧ p.goldKindOf r.win 1 ≠ 0 then r'.src = 1 ∧ r'.idle = false else r'.idle = true) ∧ r'.since = T) ∧
        ∀ a, q.byteAt a = p.byteAt a)) ∧
      (∀ bs bad, r.idle = false → bs.length = 4096 → T ≤ r.t0 + repairLimit → (r.src = 0 → p.goldKindOf r.win 1 ≠ 0 → T ≤ r.since + ms 500) → bad = false → b % 4096 = 0 → b + 4096 ≤ hbmEnd →
        p.dead = [] → p.dirtyWf → p.hbm.lost = none → (∀ c ∈ p.hbm.waiting, c.1 ≠ b) → s.gives (.goldenData b bs bad now) (fun q =>
          p.Stored q (bs.mapIdx fun i x => (b + i, x)) ∧ q.repairOf b = none ∧
          q.rd HBM_GOLD_STATE_REPAIRED 0 r.win = min (p.rd HBM_GOLD_STATE_REPAIRED 0 r.win + 1) (2 ^ 24 - 1))) ∧
      (r.idle = false → r.src = 0 → p.goldKindOf r.win 1 ≠ 0 → r.since + ms 500 ≤ T → s.gives (.sourceLimit b now) (fun q =>
        ∃ r', q.repairOf b = some r' ∧ r'.src = 1 ∧ r'.idle = false ∧ r'.since = T)) ∧
      (r.idle = true ∨ r.src ≠ 0 ∨ p.goldKindOf r.win 1 = 0 ∨ T < r.since + ms 500 → s.gives (.sourceLimit b now) (fun q => q = p)) ∧
      (r.idle = true → r.since + ms 10 ≤ T → p.goldKindOf r.win 0 ≠ 0 → s.gives (.repairRetry b now) (fun q =>
        ∃ r', q.repairOf b = some r' ∧ r'.src = 0 ∧ r'.idle = false ∧ r'.since = T)) ∧
      (r.idle = false ∨ T < r.since + ms 10 → s.gives (.repairRetry b now) (fun q => q = p)) ∧
      (T < r.t0 + repairLimit ∨ p.unmoved b = true → s.gives (.windowDegraded b now) (fun q => q = p)) ∧
      (r.t0 + repairLimit ≤ T → p.unmoved b = false → (∀ c ∈ p.hbm.waiting, c.1 ≠ b) → s.gives (.windowDegraded b now) (fun q =>
        q.rd LLC_WIN_ATTR_DEGRADED 0 r.win = 1 ∧ q.rd HBM_GOLD_STATE_FAILED 0 r.win = min (p.rd HBM_GOLD_STATE_FAILED 0 r.win + 1) 65535 ∧
        q.repairOf b = none ∧ (r.win, b, (0 : W64)) ∈ q.hbm.failed)))

/-- For every part out of package reset. REGISTER_WRITE needs no fatal error: an aligned 32-bit or 64-bit write of an assigned register that has no action
of its own stores the RW bits and clears the W1C bits written 1, in the written half alone; a misaligned or unassigned one, or one to a spare tile
that is not in service, changes nothing. RC_READ shows the value of the covered half and clears exactly the RC fields that lie wholly in it; a
register of a spare tile reads as zero; a rejected read answers no value. Reads work after a fatal error. For every live part. On the tick master a
TICK_CTL write in range is held with CTL_PENDING, one out of range sets CTL_REJECT; neither changes the value in force; on other devices it is
ignored. FAULT_CLEAR clears FAULT and MORE alone. ENABLE written to 1 in CMD_ADMQ_CFG sets up queue pair 0 of the physical function from the
registers, sizes clamped to their ranges; written to 0 it removes it; while it stays 1 the other fields keep their values. PORT_ENABLE starts training
of a disabled port whose HUSK_PORTS bit is set, and disables a port with all its state. (spec/00_scope.md; spec/18_reliability_repair.md; spec/02_step_tick.md; spec/03_thread_groups.md; spec/13_bellith_links.md; spec/15_symbite_commands.md) -/
def Obligations.Registers : Prop :=
  (
  ∀ s : State, s.pins.inReset = false →
    let p := s.part
    (∀ o width : Nat, (csAligned o width = false ∨ csFind o = none) →
      (p.fatal = false → ∀ v, s.gives (.registerWrite o width v) (fun q => q = p)) ∧ s.gives (.rcRead o width) (fun q => q = p.emit (.readData none))) ∧
    (∀ (o width : Nat) (h : CsHit), csAligned o width = true → csFind o = some h →
      let m := halfMask o width
      (p.csInst h = none →
        (p.fatal = false → ∀ v, s.gives (.registerWrite o width v) (fun q => q = p)) ∧ s.gives (.rcRead o width) (fun q => q = p.emit (.readData (some 0)))) ∧
      (∀ i, p.csInst h = some i →
        let r := h.row.reg
        let old := p.reg r (aliasInst r i) h.j
        (∀ v : W64, p.fatal = false →
          r ∉ [reg_TICK_CTL, reg_TL_EVENTS, reg_CMD_ADMQ_SQ, reg_CMD_ADMQ_CQ, reg_CMD_ADMQ_CFG, reg_BLK_CFG, reg_UCI_MBX_SEND, reg_HBM_TG_CTL, reg_PWR_CFG,
            reg_PWR_THERM, reg_PWR_RAIL0] →
          s.gives (.registerWrite o width v) (fun q => ∃ n : W64, q = p.setReg r n (aliasInst r i) h.j ∧ ∀ b, b < 64 →
            let w := if width = 8 then v.getLsbD b else if o % 8 = 0 then b < 32 && v.getLsbD b else 32 ≤ b && v.getLsbD (b - 32)
            n.getLsbD b = ((if (h.row.bits .rw).getLsbD b = true ∧ m.getLsbD b = true then w else old.getLsbD b) &&
              !(w && (h.row.bits .w1c).getLsbD b && m.getLsbD b)))) ∧
        s.gives (.rcRead o width) (fun q => (∃ x, q.out = p.out ++ [.readData (some x)] ∧
            (width = 8 → x = p.live { h with i := i } old &&& ~~~(h.row.bits .wo)) ∧
            (width = 4 → x.toNat = (p.live { h with i := i } old &&& ~~~(h.row.bits .wo)).toNat / 2 ^ (8 * (o % 8)) % 2 ^ 32)) ∧
          (∀ f ∈ h.row.flds, getB (q.reg r (aliasInst r i) h.j) f.1 f.2.1 =
            if f.2.2 = .rc ∧ getB m f.1 f.2.1 = 2 ^ f.2.1 - 1 then 0 else getB old f.1 f.2.1) ∧
          { q with ctl := [], out := [] } = { p with ctl := [], out := [] })))) ∧
  (
  ∀ s : State, s.live →
    let p := s.part
    (∀ v : W64,
      let bits : W64 := 0x1F317FF1FFFF
      let merged := (p.tick.ctlHeld.getD (p.reg reg_TICK_CTL) &&& ~~~bits) ||| (v &&& bits)
      let good := 250 ≤ getB v 0 17 ∧ getB v 0 17 ≤ 100000 ∧ 20 ≤ getB v 20 11 ∧ getB v 20 11 ≤ 2000 ∧ 2 * getB v 20 11 ≤ getB v 0 17 ∧
        1 ≤ getB v 36 2 ∧ 1 ≤ getB v 40 4
      (p.rd TICK_STATUS_ROLE = 0 → s.gives (.tickCtlWrite v) (fun q => q = p)) ∧
      (p.rd TICK_STATUS_ROLE = 1 → good → s.gives (.tickCtlWrite v) (fun q => q.tick = { p.tick with ctlHeld := some merged } ∧
        q.reg reg_TICK_CTL = p.reg reg_TICK_CTL ∧ q.rd TICK_STATUS_CTL_PENDING = 1 ∧ q.host = p.host)) ∧
      (p.rd TICK_STATUS_ROLE = 1 → ¬ good → s.gives (.tickCtlWrite v) (fun q => q.tick = p.tick ∧ q.reg reg_TICK_CTL = p.reg reg_TICK_CTL ∧
        q.rd TICK_EVENTS_CTL_REJECT = 1))) ∧
    (∀ t : TileId, s.gives (.faultClear t) (fun q => q.rd TL_EVENTS_FAULT t = 0 ∧ q.rd TL_FAULT_PC_MORE t = 0 ∧
      (∀ f ∈ [TL_EVENTS_RESET_DONE, TL_EVENTS_STORES_LOST, TL_EVENTS_DRAIN_LIMIT, TL_FAULT_PC_PC, TL_FAULT_CODE, TL_FAULT_GROUP, TL_FAULT_ADDR_ADDR],
        q.rd f t = p.rd f t) ∧ { q with ctl := [] } = { p with ctl := [] })) ∧
    (∀ v : W64,
      let on := v.getLsbD 32
      (p.rd CMD_ADMQ_CFG_ENABLE = 0 → on = true → s.gives (.admqEnable v) (fun q =>
        q.rd CMD_ADMQ_CFG_ENABLE = 1 ∧ q.rd CMD_ADMQ_CFG_VECTOR = getB v 12 11 ∧
        q.sq 0 0 = { state := 1, base := (p.reg reg_CMD_ADMQ_SQ).toNat, log2 := min (max (getB v 0 4) 4) 12, slotLog2 := min (max (getB v 4 4) 7) 12,
                     vector := getB v 12 11, cq := 0 } ∧
        q.cq 0 0 = { exists_ := true, base := (p.reg reg_CMD_ADMQ_CQ).toNat, log2 := min (max (getB v 8 4) 4) 12, vector := getB v 12 11,
                     events := v.getLsbD 23 })) ∧
      (p.rd CMD_ADMQ_CFG_ENABLE = 0 → on = false → s.gives (.admqEnable v) (fun q => q.host = p.host ∧ q.rd CMD_ADMQ_CFG_ENABLE = 0 ∧
        q.rd CMD_ADMQ_CFG_SQ_LOG2 = getB v 0 4 ∧ q.rd CMD_ADMQ_CFG_SLOT_LOG2 = getB v 4 4 ∧ q.rd CMD_ADMQ_CFG_CQ_LOG2 = getB v 8 4)) ∧
      (p.rd CMD_ADMQ_CFG_ENABLE = 1 → on = true → s.gives (.admqEnable v) (fun q => q.host = p.host ∧ q.reg reg_CMD_ADMQ_CFG = p.reg reg_CMD_ADMQ_CFG)) ∧
      (p.rd CMD_ADMQ_CFG_ENABLE = 1 → on = false → s.gives (.admqEnable v) (fun q => q.rd CMD_ADMQ_CFG_ENABLE = 0 ∧
        q.rd CMD_ADMQ_CFG_VECTOR = p.rd CMD_ADMQ_CFG_VECTOR ∧ q.sq 0 0 = { p.sq 0 0 with state := 0 } ∧ q.cq 0 0 = {} ∧
        ∀ r ∈ q.host.accepted, ¬ (r.fn = 0 ∧ r.q = 0)))) ∧
    (∀ i : PortId,
      (p.rd BLK_CFG_ENABLE i = 0 → p.rd BLK_STATUS_STATE i = 0 → (p.rd HUSK_PORTS_ENABLE).testBit i = true → s.gives (.portEnable i true) (fun q =>
        q.rd BLK_CFG_ENABLE i = 1 ∧ q.rd BLK_STATUS_STATE i = 1 ∧ q.port i = { p.port i with quar := 0, fails := 0 })) ∧
      (p.rd BLK_CFG_ENABLE i = 0 → p.rd BLK_STATUS_STATE i = 0 → (p.rd HUSK_PORTS_ENABLE).testBit i = false → s.gives (.portEnable i true) (fun q =>
        q.rd BLK_CFG_ENABLE i = 1 ∧ q.rd BLK_STATUS_STATE i = 0 ∧ q.ports = p.ports)) ∧
      (p.rd BLK_CFG_ENABLE i = 1 → s.gives (.portEnable i false) (fun q => q.rd BLK_CFG_ENABLE i = 0 ∧ q.rd BLK_STATUS_STATE i = 0 ∧
        q.rd BLK_STATUS_WIDTH i = 0 ∧ q.rd BLK_STATUS_LANES i = 0 ∧ q.port i = {} ∧ ∀ t, q.tile t = p.tile t)) ∧
      (∀ on, p.rd BLK_CFG_ENABLE i = b2n on → s.gives (.portEnable i on) (fun q => q.ports = p.ports ∧
        q.rd BLK_STATUS_STATE i = p.rd BLK_STATUS_STATE i ∧ q.rd BLK_CFG_ENABLE i = b2n on))))

/-- POR_N_ASSERT in any state puts the package in reset: every unit of the part is as at reset but for THERMTRIP_N, which holds until power is removed;
serial memory keeps its contents, but a region that was being written no longer verifies. POR_N_RELEASE samples MG_SEL and the address straps and ends
the reset when the rails are up; RAIL_IN_REGULATION ends it when POR_N is high. On a live part RAIL_LOSS of a VCD rail takes the die out at the next
boundary, of a VTB rail the tuber, of any other rail the package, the last two fatal. (That the free values' counter goes on is the model's own
choice, log 2.) For every part out of package reset: a row of a stage that is not the one under way changes nothing. A header or owner certificate
that fails goes to Recovery; the configuration copy with the higher VERSION is chosen, A when equal, Recovery when neither verifies; firmware older
than MIN_FW_VERSION or that fails goes to Recovery. IDENTITY shows the dies that failed: compute dies are retired, a tuber is fatal; with no identity
at all every bit is set and nothing is retired. SEALED loads the bounds and the repair records and starts firmware. After it BOND_SELF_TEST and
BRIDGE_TEST give marked joins their spares, retire a tile's pod or die without one, and are fatal for a bridge without one. (spec/20_package_signals.md; spec/19_boot_identity_husk.md; spec/18_reliability_repair.md; notes/assumptions/2.md) -/
def Obligations.ResetAndBoot : Prop :=
  (
  ∀ s : State,
    let p := s.part
    (∃ t, exec .porNAssert s = .next t ∧ t.pending = s.pending ∧ t.pins = { s.pins with porN := false, inReset := true } ∧
      { t.part with freeCtr := 0, mgmt := { t.part.mgmt with thermTripN := true } } = State.reset.part ∧
      t.part.mgmt.thermTripN = (p.mgmt.thermTripN || !s.pins.railsOk) ∧
      (p.rd HUSK_FW_STATUS_SLOT_STATE ≠ 1 → t.serial = s.serial) ∧
      (p.rd HUSK_FW_STATUS_SLOT_STATE = 1 →
        (p.rd HUSK_FW_STATUS_BUF_TYPE = 1 → t.serial = { s.serial with fwOk := false }) ∧
        (p.rd HUSK_FW_STATUS_BUF_TYPE = 2 → (t.serial.cfgA.valid = false ∧ t.serial.cfgB = s.serial.cfgB) ∨
          (t.serial.cfgB.valid = false ∧ t.serial.cfgA = s.serial.cfgA)) ∧
        (p.rd HUSK_FW_STATUS_BUF_TYPE = 3 → t.serial = { s.serial with ownerOk := false }))) ∧
    (∀ (sel : Bool) (a : BitVec 2),
      (s.pins.porN = true → exec (.porNRelease sel a) s = .next s) ∧
      (s.pins.porN = false → ∃ t, exec (.porNRelease sel a) s = .next t ∧ t.pins.porN = true ∧ (t.pins.inReset = false ↔ s.pins.railsOk = true) ∧
        t.part.mgmt.i3c = sel ∧ t.part.mgmt.addr = a ∧ { t.part with mgmt := {} } = { p with mgmt := {} } ∧ t.serial = s.serial ∧ t.pending = s.pending)) ∧
    (∃ pins, exec .railInRegulation s = .next { s with pins := pins } ∧ pins.railsOk = true ∧ pins.porN = s.pins.porN ∧
      (pins.inReset = true ↔ s.pins.inReset = true ∧ s.pins.porN = false)) ∧
    (∀ r : RailId, s.live → ∃ q b, exec (.railLoss r) s = .next { s with part := q, pins := { s.pins with railsOk := b } } ∧
      (b = true ↔ s.pins.railsOk = true ∧ 16 ≤ r.val ∧ r.val ≠ 32) ∧
      (∀ d, r.val = d → d < 12 → p.repair.retiredDies.getLsbD d = true → q = p) ∧
      (∀ d, r.val = d → d < 12 → p.repair.retiredDies.getLsbD d = false → .die d none ∈ q.repair.pending) ∧
      (12 ≤ r.val → q.fatal = true ∧ q.mgmt.alive = false ∧ q.rd GLOBAL_DEV_JOINED = 0 ∧ q.step.running = false ∧
        (r.val < 16 → q.rd GLOBAL_INV_TUBERS_EN = (p.rd GLOBAL_INV_TUBERS_EN - 1) % 8)))) ∧
  (
  ∀ s : State, s.pins.inReset = false →
    let p := s.part
    let n := p.stage
    let x := s.serial
    (1 < n → s.gives .header (fun q => q = p)) ∧ (n ≤ 1 → s.gives .header (fun q => q.stage = if x.headerOk = true then 2 else 8)) ∧
    (n ≠ 2 → s.gives .owner (fun q => q = p)) ∧ (n = 2 → s.gives .owner (fun q => q.stage = if x.ownerOk = true then 3 else 8)) ∧
    (n ≠ 3 → s.gives .config (fun q => q = p)) ∧
    (n = 3 →
      let useA := x.cfgA.usable = true ∧ (x.cfgB.usable = true → x.cfgB.version ≤ x.cfgA.version)
      let takes (c : CfgCopy) (copy : Nat) : Prop := s.gives .config (fun q => q.stage = 4 ∧ q.boot.cfg = c ∧ q.rd HUSK_STATUS_CFG_COPY = copy ∧
        q.rd HUSK_STATUS_CFG_SEQ = c.version % 2 ^ 32)
      (useA → takes x.cfgA 0) ∧ (¬ useA → x.cfgB.usable = true → takes x.cfgB 1) ∧
      (x.cfgA.usable = false → x.cfgB.usable = false → s.gives .config (fun q => q.stage = 8 ∧ q.boot = p.boot))) ∧
    (n ≠ 4 → s.gives .firmware (fun q => q = p)) ∧
    (n = 4 → s.gives .firmware (fun q => q.stage = (if x.fwOk = true ∧ p.boot.cfg.minFw ≤ x.fwVersion then 5 else 8) ∧
      (q.stage = 5 → q.rd GLOBAL_REPAIR_STATUS_FW_VERSION = x.fwVersion % 2 ^ 32))) ∧
    (∀ failed : BitVec 16,
      (n ≠ 5 → s.gives (.identity failed) (fun q => q = p)) ∧
      (n = 5 → x.identityOk = false → s.gives (.identity failed) (fun q => q.stage = 6 ∧ q.rd HUSK_STATUS_ID_FAIL = 0xFFFF ∧ q.repair = p.repair ∧
        q.fatal = p.fatal ∧ q.tiles = p.tiles)) ∧
      (n = 5 → x.identityOk = true → s.gives (.identity failed) (fun q => q.stage = 6 ∧ q.rd HUSK_STATUS_ID_FAIL = failed.toNat ∧
        (∀ d, d < 12 → (q.repair.retiredDies.getLsbD d = true ↔ p.repair.retiredDies.getLsbD d = true ∨ failed.getLsbD d = true)) ∧
        (q.fatal = true ↔ p.fatal = true ∨ ∃ t, t < 4 ∧ failed.getLsbD (12 + t) = true)))) ∧
    (n ≠ 6 → s.gives .sealed (fun q => q = p)) ∧
    (n = 6 → s.gives .sealed (fun q =>
      let c := p.boot.cfg
      q.stage = 7 ∧ q.rd HUSK_STATUS_SEALED = 1 ∧ (q.mgmt.alive = true ↔ p.fatal = false) ∧ q.rd GLOBAL_DEV_DEV_ID = c.devId % 64 ∧
      q.rd HUSK_PORTS_ENABLE = c.ports.toNat ∧ q.rd HUSK_TILE_CS_READ = c.tileRead.toNat ∧ q.rd HUSK_TILE_CS_WRITE = c.tileWrite.toNat ∧
      q.rd HUSK_CEIL_LIMIT_W = c.limitW % 4096 ∧ q.rd HUSK_CEIL_VCD_MV = c.vcdMv % 4096 ∧ q.rd HUSK_CEIL_T_HOT_C = c.tHot % 256 ∧
      q.rd TICK_STATUS_ROLE = 1 ∧ q.repair.bypass = x.bypass ∧ q.repair.sliceMap = x.sliceMap ∧ q.repair.joins = x.joins ∧ q.hbm.remap = x.rows ∧
      q.repair.retiredPods = p.repair.retiredPods ||| x.retiredPods ∧ q.repair.retiredDies = p.repair.retiredDies ||| x.retiredDies)) ∧
    (p.fatal = false →
      (∀ ts ds, n ≠ 7 → s.gives (.bondSelfTest ts ds) (fun q => q = p)) ∧
      (∀ ds : List DieId, n = 7 → s.gives (.bondSelfTest [] ds) (fun q => (∀ d ∈ ds, q.repair.retiredDies.getLsbD d = true) ∧
        q.repair.joins = p.repair.joins.filter fun j => j.1 ≠ ukBond)) ∧
      (∀ t : TileId, n = 7 → p.repair.pending = [] → s.gives (.bondSelfTest [t] []) (fun q =>
        if p.spareFree (dieOf t) (rowOf t) = true then q.bypassAt (dieOf t) (rowOf t) = p.physColOf t else inMask q.repair.retiredPods (podOf t) = true)) ∧
      (∀ ok, n ≠ 7 → s.gives (.bridgeTest ok) (fun q => q = p)) ∧
      (n = 7 → s.gives (.bridgeTest false) (fun q => q.fatal = true ∧ q.mgmt.alive = false)) ∧
      (n = 7 → s.gives (.bridgeTest true) (fun q => q = { p with repair := { p.repair with joins := p.repair.joins.filter fun j => j.1 ≠ ukBridge } }))))

/-- For every part out of package reset: BLOCK_WRITE is not taken while BUSY; a fragment in sequence adds its bytes, the last one sets BUSY; one out of
sequence, or on SMBus with a wrong packet error code, drops the packet and sets ERROR. BLOCK_READ answers the next 240 bytes of the reply and clears
BUSY with the last. READ_BYTE shows the status bits. Addresses: dynamic ones in I3C once, the alert response on SMBus. In any state a JTAG row selects
its instruction, those that drive lands act as BYPASS while POR_N is high. IMAGE_PUSH in Recovery fills the ROM's buffer, and an object that verifies
is written and restarts the boot at the Header stage; in the Running stage it answers BAD_STATE. (spec/20_package_signals.md; spec/19_boot_identity_husk.md) -/
def Obligations.ManagementPortAndJtag : Prop :=
  (∀ s : State, s.pins.inReset = false →
    let p := s.part
    let m := p.mgmt
    (∀ (b : BitVec 8) (data : List Byte) (ok : Bool),
      let first := b.getLsbD 7 = true
      let got := if first then data else m.rx ++ data
      let fits := (ok = true ∨ m.i3c = true) ∧ (if first then b.toNat % 64 = 0 else m.rxOpen = true ∧ b.toNat % 64 = m.rxSeq)
      (m.busy = true → s.gives (.blockWrite b data ok) (fun q => q = p)) ∧
      (m.busy = false → ¬ fits → s.gives (.blockWrite b data ok) (fun q => q.mgmt.error = true ∧ q.mgmt.rx = [] ∧ q.mgmt.rxOpen = false ∧ q.mgmt.busy = false ∧
        { q with mgmt := {} } = { p with mgmt := {} })) ∧
      (m.busy = false → fits → b.getLsbD 6 = false → s.gives (.blockWrite b data ok) (fun q => q.mgmt.rx = got ∧ q.mgmt.rxOpen = true ∧
        q.mgmt.rxSeq = (b.toNat % 64 + 1) % 64 ∧ q.mgmt.busy = false ∧ (first → q.mgmt.error = false) ∧ { q with mgmt := {} } = { p with mgmt := {} })) ∧
      (m.busy = false → fits → b.getLsbD 6 = true → s.gives (.blockWrite b data ok) (fun q => q.mgmt.busy = true ∧ q.mgmt.rx = [] ∧ q.mgmt.rxOpen = false ∧
        (p.stage = 7 → badPacket got = false → opIndex (leAt got 0 2) = none → q.mgmt.replyReady = true ∧ leAt q.mgmt.reply 0 2 = stUnknownOpcode)))) ∧
    (m.replyReady = false → s.gives .blockRead (fun q => q = p)) ∧
    (m.replyReady = true →
      let rest := m.reply.drop (240 * m.replySeq)
      s.gives .blockRead (fun q => (∃ b : Byte, q.out = p.out ++ [.mgmtFragment (b :: rest.take 240)] ∧ (b.getLsbD 7 = true ↔ m.replySeq = 0) ∧
        (b.getLsbD 6 = true ↔ rest.length ≤ 240) ∧ b.toNat % 64 = m.replySeq % 64) ∧
        (rest.length ≤ 240 → q.mgmt = { m with busy := false, replyReady := false, reply := [], replySeq := 0 }) ∧
        (240 < rest.length → q.mgmt = { m with replySeq := m.replySeq + 1 }))) ∧
    s.gives .readByte (fun q => ∃ b : Byte, q = p.emit (.mgmtByte b) ∧ b.toNat % 16 = p.stage ∧ b.getLsbD 4 = m.replyReady ∧ b.getLsbD 5 = m.busy ∧
      b.getLsbD 6 = m.error ∧ b.getLsbD 7 = m.alive) ∧
    (∀ a : BitVec 7,
      let given : Part := { p with mgmt := { m with dynAddr := some a } }
      (m.i3c = true → m.dynAddr = none → s.gives (.setdasa a) (fun q => q = given) ∧ s.gives (.entdaa a) (fun q => q = given)) ∧
      (m.i3c = false ∨ m.dynAddr ≠ none → s.gives (.setdasa a) (fun q => q = p) ∧ s.gives (.entdaa a) (fun q => q = p))) ∧
    (m.i3c = false → m.mgAlertN = false → s.gives .alertResponseAddress (fun q => q.mgmt = { m with mgAlertN := true } ∧
      q.out = p.out ++ [.mgmtAddress (BitVec.ofNat 7 (0x60 + m.addr.toNat))])) ∧
    (m.i3c = true ∨ m.mgAlertN = true → s.gives .alertResponseAddress (fun q => q = p)) ∧
    (∀ (c : Issue) (off : Nat) (chunk : List Byte),
      let top := max (if off = 0 then 0 else p.boot.romTop) (off + chunk.length)
      let obj := bufBytes (putBuf (if off = 0 then [] else p.boot.romBuf) off chunk) top
      let whole := 32 ≤ obj.length ∧ leAt obj 8 4 ≤ obj.length
      (p.fatal = false → p.Passes c 44 → s.gives (.imagePush c off chunk) (fun q => p.Answers q c stBadState 0 [])) ∧
      (p.stage = 8 → c.cls = .b → off % 8 ≠ 0 ∨ 0x1000000 < off + chunk.length → s.gives (.imagePush c off chunk) (fun q => q = p.reply c stBadParam 0)) ∧
      (p.stage = 8 → c.cls = .b → off % 8 = 0 → off + chunk.length ≤ 0x1000000 →
        (¬ whole → s.gives (.imagePush c off chunk) (fun q => q.Replied c stOK fun r _ _ => r.romBytes = obj ∧ r.stage = 8)) ∧
        (whole → s.serial.verify p.boot.cfg.minFw obj = false → s.gives (.imagePush c off chunk) (fun q => q.Replied c stAuthFail fun r _ _ =>
          r.romBytes = [] ∧ r.stage = 8)) ∧
        (whole → s.serial.verify p.boot.cfg.minFw obj = true → ∃ q, exec (.imagePush c off chunk) s = .next { s with part := q, serial := s.serial.write obj } ∧
          q.Replied c stOK fun r _ _ => r.romBytes = [] ∧ r.stage = 1)))) ∧
  (∀ s : State,
    let takes (c : Instr) (i : JtagInstr) : Prop := exec c s = .next { s with pins := { s.pins with jtag := i } }
    takes .bypass .bypass ∧ takes .extest .extest ∧ takes .extestPulse .extestPulse ∧ takes .extestTrain .extestTrain ∧ takes .clamp .clamp ∧
    takes .highz .highz ∧ takes .trstN .idcode ∧
    (∀ v, exec (.samplePreload v) s = .next { s with pins := { s.pins with jtag := .sample, boundary := v } }) ∧
    (∃ w, exec .idcode s = .next { s with part := s.part.emit (.jtag w), pins := { s.pins with jtag := .idcode } }) ∧
    (∀ i ∈ [JtagInstr.extest, .extestPulse, .extestTrain, .clamp, .highz], ({ s.pins with jtag := i, porN := true } : Pins).acting = .bypass ∧
      ({ s.pins with jtag := i, porN := false } : Pins).acting = i))

/-- For every state in which the contents of HBM are in canonical form (addresses strictly rising, no byte equal to what an unlisted address reads as),
the dirty bytes of the slices are listed once each in order, and every kernel and every saved pod belongs to a function below 64: after any step that
answers a next state, the same holds. State.reset meets it (stated with the reset state). Other statements take these invariants as premises. (spec/08_shared_cache.md; spec/12_hbm.md; spec/16_sharing_scheduling.md; notes/assumptions/1.md (what an unlisted address reads as)) -/
def Obligations.MemoryStaysCanonical : Prop :=
  ∀ s t : State, step s = .next t → s.memoryWf → s.part.dirtyWf → s.part.FnsOk → t.memoryWf ∧ t.part.dirtyWf ∧ t.part.FnsOk

/-- In every state the IDCODE row puts out one 32-bit value that holds 4 × REV_LETTER + REV_STEP in bits [31:28], 0x1224 in bits [27:12], 0x4B5 in bits
[11:1] and 1 in bit 0. (R817) -/
def Obligations.IdcodeContents : Prop :=
  ∀ s : State, ∃ w t, exec .idcode s = .next t ∧ t.part.out = s.part.out ++ [.jtag w] ∧
    w.toNat / 2 ^ 28 = (4 * s.part.rd GLOBAL_PART_REV_LETTER + s.part.rd GLOBAL_PART_REV_STEP) % 16 ∧ w.toNat / 2 ^ 12 % 2 ^ 16 = 0x1224 ∧
    w.toNat / 2 % 2 ^ 11 = 0x4B5 ∧ w.toNat % 2 = 1

/-- In every state out of package reset in which the port is not BUSY: a fragment that is out of sequence, or on SMBus one with a wrong packet error code,
discards the packet received so far and sets ERROR; a FIRST fragment in sequence and without such an error clears ERROR. (R815) -/
def Obligations.FragmentErrors : Prop :=
  ∀ (s : State) (b : BitVec 8) (data : List Byte) (ok : Bool), s.pins.inReset = false → s.part.mgmt.busy = false →
    let m := s.part.mgmt
    let next := if b.getLsbD 7 = true then 0 else m.rxSeq
    let open_ := b.getLsbD 7 = true ∨ m.rxOpen = true
    (open_ → b.toNat % 64 ≠ next ∨ (ok = false ∧ m.i3c = false) →
      s.gives (.blockWrite b data ok) (fun q => q.mgmt.error = true ∧ q.mgmt.rx = [] ∧ q.mgmt.rxOpen = false)) ∧
    (b.getLsbD 7 = true → b.toNat % 64 = 0 → (ok = true ∨ m.i3c = true) → s.gives (.blockWrite b data ok) (fun q => q.mgmt.error = false))
end

