-- ==== Sys2Proof/Laws/Bits.lean ====
section
/-! SUPPORT. Laws/Bits.lean: a field read after a field is set. -/

namespace Sys2Proof.Machine

theorem getB_testBit (w : W64) (lo n i : Nat) : (getB w lo n).testBit i = (decide (i < n) && w.getLsbD (lo + i)) := by
  simp [getB, Nat.testBit_mod_two_pow, Nat.testBit_shiftRight, BitVec.getLsbD]

theorem setB_bit (w : W64) (lo n v i : Nat) (hi : i < 64) :
    (setB w lo n v).getLsbD i = if lo ≤ i ∧ i < lo + n then v.testBit (i - lo) else w.getLsbD i := by
  have h1 : i - lo < 64 := by omega
  simp only [setB, BitVec.getLsbD_or, BitVec.getLsbD_and, BitVec.getLsbD_not, BitVec.getLsbD_shiftLeft, BitVec.getLsbD_ofNat,
    Nat.testBit_two_pow_sub_one, Nat.testBit_mod_two_pow, hi, h1, decide_true, Bool.true_and]
  by_cases ha : lo ≤ i
  · have hb : ¬ i < lo := by omega
    by_cases hc : i < lo + n
    · have hd : i - lo < n := by omega
      simp [ha, hb, hc, hd]
    · have hd : ¬ i - lo < n := by omega
      simp [hb, hc, hd]
  · have hb : i < lo := by omega
    simp [ha, hb]

/-- A field reads back what was put into it. -/
theorem getB_setB_self (w : W64) (lo n v : Nat) (h : lo + n ≤ 64) : getB (setB w lo n v) lo n = v % 2 ^ n := by
  apply Nat.eq_of_testBit_eq
  intro i
  rw [getB_testBit, Nat.testBit_mod_two_pow]
  by_cases hi : i < n
  · rw [setB_bit _ _ _ _ _ (by omega)]
    simp [hi]
  · simp [hi]

/-- A field that another one does not meet keeps its value. -/
theorem getB_setB_ne (w : W64) (lo n v lo' n' : Nat) (h : lo + n ≤ lo' ∨ lo' + n' ≤ lo) : getB (setB w lo n v) lo' n' = getB w lo' n' := by
  apply Nat.eq_of_testBit_eq
  intro i
  rw [getB_testBit, getB_testBit]
  by_cases hi : i < n'
  · by_cases h64 : lo' + i < 64
    · rw [setB_bit _ _ _ _ _ h64]
      have : ¬ (lo ≤ lo' + i ∧ lo' + i < lo + n) := by omega
      simp [this]
    · rw [BitVec.getLsbD_of_ge _ _ (by omega), BitVec.getLsbD_of_ge _ _ (by omega)]
  · simp [hi]

theorem getB_lt (w : W64) (lo n : Nat) : getB w lo n < 2 ^ n := Nat.mod_lt _ (Nat.two_pow_pos n)

end Sys2Proof.Machine
end

