-- ==== Sys2Proof/Laws/Exec.lean ====
section
/-! SUPPORT. Laws/Exec.lean: exec of each command is its meaning (one lemma per constructor, so that no proof unfolds the dispatch), and completion of a command
whose meaning changes the part alone. -/

namespace Sys2Proof.Machine

/-- A command whose meaning is a change of the part completes in a live part. -/
theorem State.gives_part {s : State} (h : s.live) {c : Instr} {f : Part → Part} (he : exec c s = s.onPart f) {Q : Part → Prop} (hq : Q (f s.part)) :
    s.gives c Q := ⟨f s.part, by simp [he, State.onPart, h.1, h.2], hq⟩

/-- One whose meaning is such a change even after a fatal error completes outside package reset. -/
theorem State.gives_any {s : State} (h : s.pins.inReset = false) {c : Instr} {f : Part → Part} (he : exec c s = s.onAny f) {Q : Part → Prop}
    (hq : Q (f s.part)) : s.gives c Q := ⟨f s.part, by simp [he, State.onAny, h], hq⟩

variable (s : State)

theorem exec_tickBoundary : exec (.tickBoundary) s = execTickBoundary s := rfl
theorem exec_stepStart (now : Nat) : exec (.stepStart now) s = execStepStart now s := rfl
theorem exec_stepComplete (now : Nat) : exec (.stepComplete now) s = execStepComplete now s := rfl
theorem exec_guardStart : exec (.guardStart) s = execGuardStart s := rfl
theorem exec_stepStatusReceived (dev : DevId) (rep : StepReport) (slotsFaulted slotsReplay : Nat) : exec (.stepStatusReceived dev rep slotsFaulted slotsReplay) s = execStepStatusReceived dev rep slotsFaulted slotsReplay s := rfl
theorem exec_verdictDecision : exec (.verdictDecision) s = execVerdictDecision s := rfl
theorem exec_verdict (v : Verdict) (overrun : Bool) : exec (.verdict v overrun) s = execVerdict v overrun s := rfl
theorem exec_announceSend : exec (.announceSend) s = execAnnounceSend s := rfl
theorem exec_announce (tick : Nat) (boundary : Nat) (ctl : W64) : exec (.announce tick boundary ctl) s = execAnnounce tick boundary ctl s := rfl
theorem exec_syncSend : exec (.syncSend) s = execSyncSend s := rfl
theorem exec_sync (master : DevId) (masterTime hopDelay now : Nat) : exec (.sync master masterTime hopDelay now) s = execSync master masterTime hopDelay now s := rfl
theorem exec_holdover (now : Nat) : exec (.holdover now) s = execHoldover now s := rfl
theorem exec_masterLost (now : Nat) : exec (.masterLost now) s = execMasterLost now s := rfl
theorem exec_iadd (t : TileId) (g : GroupId) (vd va vb : Nat) : exec (.iadd t g vd va vb) s = execIadd t g vd va vb s := rfl
theorem exec_imul (t : TileId) (g : GroupId) (vd va vb : Nat) : exec (.imul t g vd va vb) s = execImul t g vd va vb s := rfl
theorem exec_fadd (t : TileId) (g : GroupId) (vd va vb : Nat) : exec (.fadd t g vd va vb) s = execFadd t g vd va vb s := rfl
theorem exec_fmul (t : TileId) (g : GroupId) (vd va vb : Nat) : exec (.fmul t g vd va vb) s = execFmul t g vd va vb s := rfl
theorem exec_fma (t : TileId) (g : GroupId) (vd va vb vc : Nat) : exec (.fma t g vd va vb vc) s = execFma t g vd va vb vc s := rfl
theorem exec_compare (t : TileId) (g : GroupId) (c : Cond) (vd va vb : Nat) : exec (.compare t g c vd va vb) s = execCompare t g c vd va vb s := rfl
theorem exec_select (t : TileId) (g : GroupId) (vd vp va vb : Nat) : exec (.select t g vd vp va vb) s = execSelect t g vd vp va vb s := rfl
theorem exec_logic (t : TileId) (g : GroupId) (op : LogicOp) (vd va vb : Nat) : exec (.logic t g op vd va vb) s = execLogic t g op vd va vb s := rfl
theorem exec_cvt (t : TileId) (g : GroupId) (dst src : Fmt) (m : RMode) (sat : SatMod) (vd vs : Nat) : exec (.cvt t g dst src m sat vd vs) s = execCvt t g dst src m sat vd vs s := rfl
theorem exec_shfl (t : TileId) (g : GroupId) (vd va vb : Nat) : exec (.shfl t g vd va vb) s = execShfl t g vd va vb s := rfl
theorem exec_rcp (t : TileId) (g : GroupId) (vd vs : Nat) : exec (.rcp t g vd vs) s = execRcp t g vd vs s := rfl
theorem exec_rsq (t : TileId) (g : GroupId) (vd vs : Nat) : exec (.rsq t g vd vs) s = execRsq t g vd vs s := rfl
theorem exec_sqrt (t : TileId) (g : GroupId) (vd vs : Nat) : exec (.sqrt t g vd vs) s = execSqrt t g vd vs s := rfl
theorem exec_exp2 (t : TileId) (g : GroupId) (vd vs : Nat) : exec (.exp2 t g vd vs) s = execExp2 t g vd vs s := rfl
theorem exec_log2 (t : TileId) (g : GroupId) (vd vs : Nat) : exec (.log2 t g vd vs) s = execLog2 t g vd vs s := rfl
theorem exec_sin (t : TileId) (g : GroupId) (vd vs : Nat) : exec (.sin t g vd vs) s = execSin t g vd vs s := rfl
theorem exec_cos (t : TileId) (g : GroupId) (vd vs : Nat) : exec (.cos t g vd vs) s = execCos t g vd vs s := rfl
theorem exec_bra (t : TileId) (g : GroupId) (c : Cond) (va vb : Nat) (target reconv : Pc) : exec (.bra t g c va vb target reconv) s = execBra t g c va vb target reconv s := rfl
theorem exec_jmp (t : TileId) (g : GroupId) (target : Pc) : exec (.jmp t g target) s = execJmp t g target s := rfl
theorem exec_jmpInd (t : TileId) (g : GroupId) (vs : Nat) (reconv : Pc) : exec (.jmpInd t g vs reconv) s = execJmpInd t g vs reconv s := rfl
theorem exec_call (t : TileId) (g : GroupId) (vd : Nat) (target : Pc) : exec (.call t g vd target) s = execCall t g vd target s := rfl
theorem exec_ret (t : TileId) (g : GroupId) (vs : Nat) (reconv : Pc) : exec (.ret t g vs reconv) s = execRet t g vs reconv s := rfl
theorem exec_s2r (t : TileId) (g : GroupId) (vd code : Nat) : exec (.s2r t g vd code) s = execS2r t g vd code s := rfl
theorem exec_exit (t : TileId) (g : GroupId) : exec (.exit t g) s = execExit t g s := rfl
theorem exec_trap (t : TileId) (g : GroupId) (imm : BitVec 16) : exec (.trap t g imm) s = execTrap t g imm s := rfl
theorem exec_ldS (t : TileId) (g : GroupId) (size : Nat) (sx : Bool) (vd va : Nat) : exec (.ldS t g size sx vd va) s = execLdS t g size sx vd va s := rfl
theorem exec_stS (t : TileId) (g : GroupId) (size : Nat) (va vs : Nat) : exec (.stS t g size va vs) s = execStS t g size va vs s := rfl
theorem exec_ld (t : TileId) (g : GroupId) (size : Nat) (sx : Bool) (m : Marks) (vd va : Nat) : exec (.ld t g size sx m vd va) s = execLd t g size sx m vd va s := rfl
theorem exec_st (t : TileId) (g : GroupId) (size : Nat) (m : Marks) (va vs : Nat) : exec (.st t g size m va vs) s = execSt t g size m va vs s := rfl
theorem exec_atom (t : TileId) (g : GroupId) (op : AtomOp) (ty : AtomTy) (m : Marks) (vd va vs : Nat) : exec (.atom t g op ty m vd va vs) s = execAtom t g op ty m vd va vs s := rfl
theorem exec_atomCas (t : TileId) (g : GroupId) (ty : AtomTy) (m : Marks) (vd va vs vc : Nat) : exec (.atomCas t g ty m vd va vs vc) s = execAtomCas t g ty m vd va vs vc s := rfl
theorem exec_red (t : TileId) (g : GroupId) (op : AtomOp) (ty : AtomTy) (m : Marks) (va vs : Nat) : exec (.red t g op ty m va vs) s = execRed t g op ty m va vs s := rfl
theorem exec_redSec (t : TileId) (g : GroupId) (op : AtomOp) (ty : AtomTy) (m : Marks) (va vs : Nat) : exec (.redSec t g op ty m va vs) s = execRedSec t g op ty m va vs s := rfl
theorem exec_ldrsv (t : TileId) (g : GroupId) (wide : Bool) (m : Marks) (vd va : Nat) : exec (.ldrsv t g wide m vd va) s = execLdrsv t g wide m vd va s := rfl
theorem exec_stcnd (t : TileId) (g : GroupId) (wide : Bool) (m : Marks) (vd va vs : Nat) : exec (.stcnd t g wide m vd va vs) s = execStcnd t g wide m vd va vs s := rfl
theorem exec_discard (t : TileId) (g : GroupId) (va : Nat) : exec (.discard t g va) s = execDiscard t g va s := rfl
theorem exec_prefetch (t : TileId) (g : GroupId) (va : Nat) : exec (.prefetch t g va) s = execPrefetch t g va s := rfl
theorem exec_ldAcc (t : TileId) (g : GroupId) (vd va : Nat) : exec (.ldAcc t g vd va) s = execLdAcc t g vd va s := rfl
theorem exec_stAcc (t : TileId) (g : GroupId) (va vs : Nat) : exec (.stAcc t g va vs) s = execStAcc t g va vs s := rfl
theorem exec_bcvtSb4F32 (t : TileId) (g : GroupId) (m : RMode) (vd vs : Nat) : exec (.bcvtSb4F32 t g m vd vs) s = execBcvtSb4F32 t g m vd vs s := rfl
theorem exec_bcvtF32Sb4 (t : TileId) (g : GroupId) (vd vs : Nat) : exec (.bcvtF32Sb4 t g vd vs) s = execBcvtF32Sb4 t g vd vs s := rfl
theorem exec_mmaIssue (t : TileId) (g : GroupId) (vt vd : Nat) : exec (.mmaIssue t g vt vd) s = execMmaIssue t g vt vd s := rfl
theorem exec_descriptorCopy (t : TileId) : exec (.descriptorCopy t) s = execDescriptorCopy t s := rfl
theorem exec_mmaWait (t : TileId) (g : GroupId) (vt : Nat) : exec (.mmaWait t g vt) s = execMmaWait t g vt s := rfl
theorem exec_mmaWaitSt (t : TileId) (g : GroupId) (vs vt : Nat) : exec (.mmaWaitSt t g vs vt) s = execMmaWaitSt t g vs vt s := rfl
theorem exec_mmaWaitAll (t : TileId) (g : GroupId) : exec (.mmaWaitAll t g) s = execMmaWaitAll t g s := rfl
theorem exec_gbar (t : TileId) (g : GroupId) : exec (.gbar t g) s = execGbar t g s := rfl
theorem exec_bbar (t : TileId) (g : GroupId) (rel : Bool) : exec (.bbar t g rel) s = execBbar t g rel s := rfl
theorem exec_barrierTimeout (t : TileId) (b : Fin 8) : exec (.barrierTimeout t b) s = execBarrierTimeout t b s := rfl
theorem exec_meshStream (t : TileId) (g : GroupId) (vs : Nat) : exec (.meshStream t g vs) s = execMeshStream t g vs s := rfl
theorem exec_meshReady (t : TileId) (g : GroupId) : exec (.meshReady t g) s = execMeshReady t g s := rfl
theorem exec_ctrRd (t : TileId) (g : GroupId) (vd : Nat) (dir : CtrDir) (stream : Nat) : exec (.ctrRd t g vd dir stream) s = execCtrRd t g vd dir stream s := rfl
theorem exec_ctrWait (t : TileId) (g : GroupId) (dir : CtrDir) (stream vs : Nat) : exec (.ctrWait t g dir stream vs) s = execCtrWait t g dir stream vs s := rfl
theorem exec_txBegin (t : TileId) (g : GroupId) (vd : Nat) (target : Pc) : exec (.txBegin t g vd target) s = execTxBegin t g vd target s := rfl
theorem exec_txCommit (t : TileId) (g : GroupId) : exec (.txCommit t g) s = execTxCommit t g s := rfl
theorem exec_txAbort (t : TileId) (g : GroupId) (imm : BitVec 8) : exec (.txAbort t g imm) s = execTxAbort t g imm s := rfl
theorem exec_txAbortNotice (t : TileId) (g : GroupId) : exec (.txAbortNotice t g) s = execTxAbortNotice t g s := rfl
theorem exec_txTimeout (t : TileId) (g : GroupId) : exec (.txTimeout t g) s = execTxTimeout t g s := rfl
theorem exec_fenceAcq (t : TileId) (g : GroupId) : exec (.fenceAcq t g) s = execFenceAcq t g s := rfl
theorem exec_fenceRel (t : TileId) (g : GroupId) (vd : Nat) : exec (.fenceRel t g vd) s = execFenceRel t g vd s := rfl
theorem exec_fenceAr (t : TileId) (g : GroupId) (vd : Nat) : exec (.fenceAr t g vd) s = execFenceAr t g vd s := rfl
theorem exec_acquireComplete (t : TileId) (g : GroupId) : exec (.acquireComplete t g) s = execAcquireComplete t g s := rfl
theorem exec_releaseSend (t : TileId) (g : GroupId) : exec (.releaseSend t g) s = execReleaseSend t g s := rfl
theorem exec_fenceTimeout (t : TileId) (g : GroupId) : exec (.fenceTimeout t g) s = execFenceTimeout t g s := rfl
theorem exec_devfence (t : TileId) (g : GroupId) : exec (.devfence t g) s = execDevfence t g s := rfl
theorem exec_sidSet (t : TileId) (g : GroupId) (vs : Nat) : exec (.sidSet t g vs) s = execSidSet t g vs s := rfl
theorem exec_consume (t : TileId) (g : GroupId) (vs vc : Nat) : exec (.consume t g vs vc) s = execConsume t g vs vc s := rfl
theorem exec_controlSpaceAccess (t : TileId) (g : GroupId) (write wide : Bool) (vd va : Nat) : exec (.controlSpaceAccess t g write wide vd va) s = execControlSpaceAccess t g write wide vd va s := rfl
theorem exec_loadDataReturn (id : Nat) : exec (.loadDataReturn id) s = execLoadDataReturn id s := rfl
theorem exec_storeBufferDrain (t : TileId) : exec (.storeBufferDrain t) s = execStoreBufferDrain t s := rfl
theorem exec_blockStart (t : TileId) (now : Nat) : exec (.blockStart t now) s = execBlockStart t now s := rfl
theorem exec_kernelEnd (t : TileId) (now : Nat) : exec (.kernelEnd t now) s = execKernelEnd t now s := rfl
theorem exec_tileEcc (t : TileId) (now : Nat) : exec (.tileEcc t now) s = execTileEcc t now s := rfl
theorem exec_tileSelfTestDone (t : TileId) (pass routerPass : Bool) (now : Nat) : exec (.tileSelfTestDone t pass routerPass now) s = execTileSelfTestDone t pass routerPass now s := rfl
theorem exec_idleGate (t : TileId) : exec (.idleGate t) s = execIdleGate t s := rfl
theorem exec_drainLimit (t : TileId) : exec (.drainLimit t) s = execDrainLimit t s := rfl
theorem exec_mmaTranslation (t : TileId) : exec (.mmaTranslation t) s = execMmaTranslation t s := rfl
theorem exec_mapReadReturn (t : TileId) (err : EccErr) : exec (.mapReadReturn t err) s = execMapReadReturn t err s := rfl
theorem exec_stagingDataReturn (t : TileId) (err : EccErr) : exec (.stagingDataReturn t err) s = execStagingDataReturn t err s := rfl
theorem exec_arrayStart (t : TileId) : exec (.arrayStart t) s = execArrayStart t s := rfl
theorem exec_mmaComplete (t : TileId) : exec (.mmaComplete t) s = execMmaComplete t s := rfl
theorem exec_weightDescriptorActive (t : TileId) (ch : Fin 2) : exec (.weightDescriptorActive t ch) s = execWeightDescriptorActive t ch s := rfl
theorem exec_weightLineWrite (t : TileId) (ch : Fin 2) (line : Nat) (err : EccErr) (errSector : Fin 4) : exec (.weightLineWrite t ch line err errSector) s = execWeightLineWrite t ch line err errSector s := rfl
theorem exec_gateOpen : exec (.gateOpen) s = execGateOpen s := rfl
theorem exec_gateLeave : exec (.gateLeave) s = execGateLeave s := rfl
theorem exec_routerSlot (r : TileId) (sched : EccErr) (bridgeUe : Option (Fin 4)) : exec (.routerSlot r sched bridgeUe) s = execRouterSlot r sched bridgeUe s := rfl
theorem exec_sliceRead (id : Nat) (err : EccErr) : exec (.sliceRead id err) s = execSliceRead id err s := rfl
theorem exec_sliceWrite (id : Nat) : exec (.sliceWrite id) s = execSliceWrite id s := rfl
theorem exec_fillComplete (line : Nat) (err : EccErr) (errSector : Fin 4) : exec (.fillComplete line err errSector) s = execFillComplete line err errSector s := rfl
theorem exec_fillWaitEnd (id : Nat) : exec (.fillWaitEnd id) s = execFillWaitEnd id s := rfl
theorem exec_missEntryWaitEnd (id : Nat) : exec (.missEntryWaitEnd id) s = execMissEntryWaitEnd id s := rfl
theorem exec_sliceAtomic (id : Nat) : exec (.sliceAtomic id) s = execSliceAtomic id s := rfl
theorem exec_pinWaitEnd (id : Nat) : exec (.pinWaitEnd id) s = execPinWaitEnd id s := rfl
theorem exec_sliceReservation (id : Nat) : exec (.sliceReservation id) s = execSliceReservation id s := rfl
theorem exec_sliceStcnd (id : Nat) : exec (.sliceStcnd id) s = execSliceStcnd id s := rfl
theorem exec_reservationGuardExpiry (line : Nat) : exec (.reservationGuardExpiry line) s = execReservationGuardExpiry line s := rfl
theorem exec_leaseExpiry (line : Nat) : exec (.leaseExpiry line) s = execLeaseExpiry line s := rfl
theorem exec_sliceDiscard (id : Nat) : exec (.sliceDiscard id) s = execSliceDiscard id s := rfl
theorem exec_prefetchHint (id : Nat) : exec (.prefetchHint id) s = execPrefetchHint id s := rfl
theorem exec_txClaim (id : Nat) : exec (.txClaim id) s = execTxClaim id s := rfl
theorem exec_txCommitApply (t : TileId) (g : GroupId) : exec (.txCommitApply t g) s = execTxCommitApply t g s := rfl
theorem exec_cleanDone (token : Nat) : exec (.cleanDone token) s = execCleanDone token s := rfl
theorem exec_tagLoss (sl : SliceId) (set : Fin 1024) (way : Fin 16) (now : Nat) : exec (.tagLoss sl set way now) s = execTagLoss sl set way now s := rfl
theorem exec_wr (r : RemoteReq) (w : RemoteWrite) (final : Option Nat) (err : EccErr) (errSector : Fin 16) : exec (.wr r w final err errSector) s = execWr r w final err errSector s := rfl
theorem exec_finalPerform (key : RemoteKey) (err : EccErr) (errSector : Fin 16) : exec (.finalPerform key err errSector) s = execFinalPerform key err errSector s := rfl
theorem exec_rd (r : RemoteReq) (err : EccErr) (errSector : Fin 16) : exec (.rd r err errSector) s = execRd r err errSector s := rfl
theorem exec_amo (r : RemoteReq) (k : AmoKind) (holder : Nat) (lanes : List AmoLane) (err : EccErr) : exec (.amo r k holder lanes err) s = execAmo r k holder lanes err s := rfl
theorem exec_ack (dev : DevId) (seq : Nat) (denied : Bool) : exec (.ack dev seq denied) s = execAck dev seq denied s := rfl
theorem exec_rdata (id : Nat) (data : List Byte) (poison dead denied : Bool) : exec (.rdata id data poison dead denied) s = execRdata id data poison dead denied s := rfl
theorem exec_remoteLostTimeout (id : Nat) : exec (.remoteLostTimeout id) s = execRemoteLostTimeout id s := rfl
theorem exec_flitReceive (p : PortId) (f : Flit) : exec (.flitReceive p f) s = execFlitReceive p f s := rfl
theorem exec_ackTimeout (p : PortId) : exec (.ackTimeout p) s = execAckTimeout p s := rfl
theorem exec_retrainDone (p : PortId) (ok : Bool) (now : Nat) : exec (.retrainDone p ok now) s = execRetrainDone p ok now s := rfl
theorem exec_probe (p : PortId) (faults : List (Fin 8 × LaneFault)) : exec (.probe p faults) s = execProbe p faults s := rfl
theorem exec_laneId (p : PortId) (reversed ordered : Bool) (inverted farQuarantine : BitVec 8) : exec (.laneId p reversed ordered inverted farQuarantine) s = execLaneId p reversed ordered inverted farQuarantine s := rfl
theorem exec_eqTrain (p : PortId) (lowMargin : BitVec 8) : exec (.eqTrain p lowMargin) s = execEqTrain p lowMargin s := rfl
theorem exec_handshake (p : PortId) (domainId : Nat) (dev : DevId) (port mode : Nat) : exec (.handshake p domainId dev port mode) s = execHandshake p domainId dev port mode s := rfl
theorem exec_linkUp (p : PortId) : exec (.linkUp p) s = execLinkUp p s := rfl
theorem exec_downRetry (p : PortId) : exec (.downRetry p) s = execDownRetry p s := rfl
theorem exec_eqAdapt (p : PortId) : exec (.eqAdapt p) s = execEqAdapt p s := rfl
theorem exec_marginUpdate (p : PortId) (margins : List (Fin 8 × Nat × Nat × Nat)) : exec (.marginUpdate p margins) s = execMarginUpdate p margins s := rfl
theorem exec_hello (h : Hello) : exec (.hello h) s = execHello h s := rfl
theorem exec_memberSend : exec (.memberSend) s = execMemberSend s := rfl
theorem exec_member (mask : W64) : exec (.member mask) s = execMember mask s := rfl
theorem exec_peerDeadTimeout (d : DevId) : exec (.peerDeadTimeout d) s = execPeerDeadTimeout d s := rfl
theorem exec_routeLostSend (d : DevId) : exec (.routeLostSend d) s = execRouteLostSend d s := rfl
theorem exec_routeLost (reporter d : DevId) : exec (.routeLost reporter d) s = execRouteLost reporter d s := rfl
theorem exec_domainLeave : exec (.domainLeave) s = execDomainLeave s := rfl
theorem exec_symbiteFwd (sender : DevId) (isReply : Bool) (id : Nat) (cls : CmdClass) (fn : FnId) (op : BitVec 16) (body : List Byte) : exec (.symbiteFwd sender isReply id cls fn op body) s = execSymbiteFwd sender isReply id cls fn op body s := rfl
theorem exec_ingestStatus (p : PortId) (foreign : Bool) : exec (.ingestStatus p foreign) s = execIngestStatus p foreign s := rfl
theorem exec_forwardTimeout (id : Nat) : exec (.forwardTimeout id) s = execForwardTimeout id s := rfl
theorem exec_dbpSqDb (fn : FnId) (q : Fin 32) (value : W32) : exec (.dbpSqDb fn q value) s = execDbpSqDb fn q value s := rfl
theorem exec_dbpCqDb (fn : FnId) (q : Fin 32) (value : W32) : exec (.dbpCqDb fn q value) s = execDbpCqDb fn q value s := rfl
theorem exec_dbpQCtl (fn : FnId) (q : Fin 32) (wide : Bool) (value : W64) : exec (.dbpQCtl fn q wide value) s = execDbpQCtl fn q wide value s := rfl
theorem exec_dbpMbxSend (fn : FnId) : exec (.dbpMbxSend fn) s = execDbpMbxSend fn s := rfl
theorem exec_uciMbxSend (mask : W64) : exec (.uciMbxSend mask) s = execUciMbxSend mask s := rfl
theorem exec_slotReadData (fn : FnId) (q : Fin 32) (slot : List Byte) : exec (.slotReadData fn q slot) s = execSlotReadData fn q slot s := rfl
theorem exec_slotReread (fn : FnId) (q : Fin 32) : exec (.slotReread fn q) s = execSlotReread fn q s := rfl
theorem exec_hostReadTimeout (fn : FnId) (q : Fin 32) (gen : Option W32) : exec (.hostReadTimeout fn q gen) s = execHostReadTimeout fn q gen s := rfl
theorem exec_commandStart (fn : FnId) (q : Fin 32) : exec (.commandStart fn q) s = execCommandStart fn q s := rfl
theorem exec_bar0Access (offset : Nat) (width : Nat) (write : Bool) (value : W64) : exec (.bar0Access offset width write value) s = execBar0Access offset width write value s := rfl
theorem exec_bar2Access (offset : Nat) (write : Bool) (len : Nat) (data : List Byte) : exec (.bar2Access offset write len data) s = execBar2Access offset write len data s := rfl
theorem exec_linkDown (now : Nat) : exec (.linkDown now) s = execLinkDown now s := rfl
theorem exec_linkRetrain (modules : BitVec 2) (repaired0 repaired1 : Nat) : exec (.linkRetrain modules repaired0 repaired1) s = execLinkRetrain modules repaired0 repaired1 s := rfl
theorem exec_detachTimeout (now : Nat) : exec (.detachTimeout now) s = execDetachTimeout now s := rfl
theorem exec_hotReset : exec (.hotReset) s = execHotReset s := rfl
theorem exec_vfFlr (fn : FnId) : exec (.vfFlr fn) s = execVfFlr fn s := rfl
theorem exec_pfFlr : exec (.pfFlr) s = execPfFlr s := rfl
theorem exec_nop (c : Issue) : exec (.nop c) s = execNop c s := rfl
theorem exec_identify (c : Issue) : exec (.identify c) s = execIdentify c s := rfl
theorem exec_attach (c : Issue) : exec (.attach c) s = execAttach c s := rfl
theorem exec_inventoryRead (c : Issue) (cursor : Nat) : exec (.inventoryRead c cursor) s = execInventoryRead c cursor s := rfl
theorem exec_logRead (c : Issue) (log cursor : Nat) : exec (.logRead c log cursor) s = execLogRead c log cursor s := rfl
theorem exec_queueCreate (c : Issue) (p : QueueParams) : exec (.queueCreate c p) s = execQueueCreate c p s := rfl
theorem exec_queueDestroy (c : Issue) (completion : Bool) (q : Nat) (fn : FnId) : exec (.queueDestroy c completion q fn) s = execQueueDestroy c completion q fn s := rfl
theorem exec_vfCreate (c : Issue) (p : VfParams) : exec (.vfCreate c p) s = execVfCreate c p s := rfl
theorem exec_vfDestroy (c : Issue) (vf : FnId) (deadWindows : Bool) : exec (.vfDestroy c vf deadWindows) s = execVfDestroy c vf deadWindows s := rfl
theorem exec_vfSetShare (c : Issue) (vf : FnId) (share : Nat) : exec (.vfSetShare c vf share) s = execVfSetShare c vf share s := rfl
theorem exec_queryAccount (c : Issue) (fn : FnId) (clear : Bool) : exec (.queryAccount c fn clear) s = execQueryAccount c fn clear s := rfl
theorem exec_podAssign (c : Issue) (pods : PodMask) (fn : FnId) (a : PodAction) : exec (.podAssign c pods fn a) s = execPodAssign c pods fn a s := rfl
theorem exec_windowCreate (c : Issue) (p : WinParams) : exec (.windowCreate c p) s = execWindowCreate c p s := rfl
theorem exec_windowModify (c : Issue) (w : Nat) (ways : Nat) (grant : W64) (strict : Bool) (codec : Nat) : exec (.windowModify c w ways grant strict codec) s = execWindowModify c w ways grant strict codec s := rfl
theorem exec_windowDestroy (c : Issue) (w : Nat) : exec (.windowDestroy c w) s = execWindowDestroy c w s := rfl
theorem exec_waysLock (c : Issue) (l : Nat) : exec (.waysLock c l) s = execWaysLock c l s := rfl
theorem exec_waysPower (c : Issue) (tuber : TuberId) (group : Fin 4) (on : Bool) : exec (.waysPower c tuber group on) s = execWaysPower c tuber group on s := rfl
theorem exec_preload (c : Issue) (src dst len : Nat) : exec (.preload c src dst len) s = execPreload c src dst len s := rfl
theorem exec_memRead (c : Issue) (addr : Nat) : exec (.memRead c addr) s = execMemRead c addr s := rfl
theorem exec_memWrite (c : Issue) (addr : Nat) (data : List Byte) : exec (.memWrite c addr data) s = execMemWrite c addr data s := rfl
theorem exec_pmapUpdate (c : Issue) (map first : Nat) (entries : List W64) : exec (.pmapUpdate c map first entries) s = execPmapUpdate c map first entries s := rfl
theorem exec_ingestBind (c : Issue) (p : PortId) (fn : Option FnId) : exec (.ingestBind c p fn) s = execIngestBind c p fn s := rfl
theorem exec_stackEvacuate (c : Issue) (st : StackId) : exec (.stackEvacuate c st) s = execStackEvacuate c st s := rfl
theorem exec_stepLoad (c : Issue) (addr len : Nat) : exec (.stepLoad c addr len) s = execStepLoad c addr len s := rfl
theorem exec_stepActivate (c : Issue) (imageId : W32) : exec (.stepActivate c imageId) s = execStepActivate c imageId s := rfl
theorem exec_stepHalt (c : Issue) : exec (.stepHalt c) s = execStepHalt c s := rfl
theorem exec_stepResume (c : Issue) : exec (.stepResume c) s = execStepResume c s := rfl
theorem exec_seqWrite (c : Issue) (p : SeqParams) : exec (.seqWrite c p) s = execSeqWrite c p s := rfl
theorem exec_seqRead (c : Issue) (first count : Nat) : exec (.seqRead c first count) s = execSeqRead c first count s := rfl
theorem exec_hint (c : Issue) (entries : List W64) : exec (.hint c entries) s = execHint c entries s := rfl
theorem exec_launch (c : Issue) (p : LaunchParams) : exec (.launch c p) s = execLaunch c p s := rfl
theorem exec_kernelKill (c : Issue) (tag : W32) (q : Nat) : exec (.kernelKill c tag q) s = execKernelKill c tag q s := rfl
theorem exec_revoke (c : Issue) (scope : BitVec 16) : exec (.revoke c scope) s = execRevoke c scope s := rfl
theorem exec_domainJoin (c : Issue) : exec (.domainJoin c) s = execDomainJoin c s := rfl
theorem exec_domainExclude (c : Issue) (d : DevId) : exec (.domainExclude c d) s = execDomainExclude c d s := rfl
theorem exec_domainStatus (c : Issue) : exec (.domainStatus c) s = execDomainStatus c s := rfl
theorem exec_powerLimit (c : Issue) (watts windowMs : Nat) : exec (.powerLimit c watts windowMs) s = execPowerLimit c watts windowMs s := rfl
theorem exec_powerMode (c : Issue) (fixed : Bool) : exec (.powerMode c fixed) s = execPowerMode c fixed s := rfl
theorem exec_sensorRead (c : Issue) : exec (.sensorRead c) s = execSensorRead c s := rfl
theorem exec_repair (c : Issue) (kind unit action join : Nat) : exec (.repair c kind unit action join) s = execRepair c kind unit action join s := rfl
theorem exec_getAttest (c : Issue) (nonce : List Byte) : exec (.getAttest c nonce) s = execGetAttest c nonce s := rfl
theorem exec_getCerts (c : Issue) (cursor : Nat) : exec (.getCerts c cursor) s = execGetCerts c cursor s := rfl
theorem exec_fwLoad (c : Issue) (offset : Nat) (chunk : List Byte) : exec (.fwLoad c offset chunk) s = execFwLoad c offset chunk s := rfl
theorem exec_fwActivate (c : Issue) : exec (.fwActivate c) s = execFwActivate c s := rfl
theorem exec_imagePush (c : Issue) (offset : Nat) (chunk : List Byte) : exec (.imagePush c offset chunk) s = execImagePush c offset chunk s := rfl
theorem exec_fwResume (now : Nat) : exec (.fwResume now) s = execFwResume now s := rfl
theorem exec_fwResumeTimeout (now : Nat) : exec (.fwResumeTimeout now) s = execFwResumeTimeout now s := rfl
theorem exec_slotWriteDone (ok : Bool) : exec (.slotWriteDone ok) s = execSlotWriteDone ok s := rfl
theorem exec_kick (ctx : CtxId) (now : Nat) : exec (.kick ctx now) s = execKick ctx now s := rfl
theorem exec_watchdogExpiry (ctx : CtxId) (now : Nat) : exec (.watchdogExpiry ctx now) s = execWatchdogExpiry ctx now s := rfl
theorem exec_controlCoreLoadStore (ctx : CtxId) (write : Bool) (addr len : Nat) (data : List Byte) : exec (.controlCoreLoadStore ctx write addr len data) s = execControlCoreLoadStore ctx write addr len data s := rfl
theorem exec_schedulerCheck (now : Nat) : exec (.schedulerCheck now) s = execSchedulerCheck now s := rfl
theorem exec_podDispatch (p : PodId) (now : Nat) : exec (.podDispatch p now) s = execPodDispatch p now s := rfl
theorem exec_saveComplete (p : PodId) (now : Nat) : exec (.saveComplete p now) s = execSaveComplete p now s := rfl
theorem exec_restoreComplete (p : PodId) (now : Nat) : exec (.restoreComplete p now) s = execRestoreComplete p now s := rfl
theorem exec_fastThrottleCheck (currents : List (Fin 16 × Nat)) (now : Nat) : exec (.fastThrottleCheck currents now) s = execFastThrottleCheck currents now s := rfl
theorem exec_vrAlert (t : TuberId) (now : Nat) : exec (.vrAlert t now) s = execVrAlert t now s := rfl
theorem exec_throttleStretch (rail : Fin 16) (now : Nat) : exec (.throttleStretch rail now) s = execThrottleStretch rail now s := rfl
theorem exec_throttleEnd (rail : Fin 16) (now : Nat) : exec (.throttleEnd rail now) s = execThrottleEnd rail now s := rfl
theorem exec_droopTrip (r : RegionId) (now : Nat) : exec (.droopTrip r now) s = execDroopTrip r now s := rfl
theorem exec_droopRecovery (r : RegionId) (now : Nat) : exec (.droopRecovery r now) s = execDroopRecovery r now s := rfl
theorem exec_boostBarEnd (r : RegionId) (now : Nat) : exec (.boostBarEnd r now) s = execBoostBarEnd r now s := rfl
theorem exec_packageLoop (estW riseW : Nat) (order : List RegionId) (now : Nat) : exec (.packageLoop estW riseW order now) s = execPackageLoop estW riseW order now s := rfl
theorem exec_hintRaise (p : PodId) (level : Fin 4) (begins : Bool) : exec (.hintRaise p level begins) s = execHintRaise p level begins s := rfl
theorem exec_railSettled (rail : Fin 16) (mv : Nat) : exec (.railSettled rail mv) s = execRailSettled rail mv s := rfl
theorem exec_calibration (readings : List (RailId × Nat × Nat × Nat)) (measW : Nat) (now : Nat) : exec (.calibration readings measW now) s = execCalibration readings measW now s := rfl
theorem exec_thermalRead (regionTemps : List (RegionId × Nat × Nat)) (tuberTemps : List (TuberId × List Nat)) (now : Nat) : exec (.thermalRead regionTemps tuberTemps now) s = execThermalRead regionTemps tuberTemps now s := rfl
theorem exec_ageingCheck (slacks : List (RegionId × Nat)) (now : Nat) : exec (.ageingCheck slacks now) s = execAgeingCheck slacks now s := rfl
theorem exec_refresh (st : StackId) (temp : Nat) : exec (.refresh st temp) s = execRefresh st temp s := rfl
theorem exec_patrolScrub (line : Nat) (err : EccErr) (errSector : Fin 4) (lastOfPass : Bool) : exec (.patrolScrub line err errSector lastOfPass) s = execPatrolScrub line err errSector lastOfPass s := rfl
theorem exec_rowCopyDone (pc row : Nat) : exec (.rowCopyDone pc row) s = execRowCopyDone pc row s := rfl
theorem exec_stackLost (st : StackId) (now : Nat) : exec (.stackLost st now) s = execStackLost st now s := rfl
theorem exec_migrationStart : exec (.migrationStart) s = execMigrationStart s := rfl
theorem exec_migrationBlock : exec (.migrationBlock) s = execMigrationBlock s := rfl
theorem exec_goldenData (block : Nat) (data : List Byte) (poisoned : Bool) (now : Nat) : exec (.goldenData block data poisoned now) s = execGoldenData block data poisoned now s := rfl
theorem exec_sourceLimit (block : Nat) (now : Nat) : exec (.sourceLimit block now) s = execSourceLimit block now s := rfl
theorem exec_repairRetry (block : Nat) (now : Nat) : exec (.repairRetry block now) s = execRepairRetry block now s := rfl
theorem exec_windowDegraded (block : Nat) (now : Nat) : exec (.windowDegraded block now) s = execWindowDegraded block now s := rfl
theorem exec_hbmReset (st : StackId) (ok : Bool) : exec (.hbmReset st ok) s = execHbmReset st ok s := rfl
theorem exec_hbmCalibrate (st : StackId) (ok : Bool) : exec (.hbmCalibrate st ok) s = execHbmCalibrate st ok s := rfl
theorem exec_hbmLane (st : StackId) (ok : Bool) : exec (.hbmLane st ok) s = execHbmLane st ok s := rfl
theorem exec_hbmRepair (st : StackId) (ok : Bool) : exec (.hbmRepair st ok) s = execHbmRepair st ok s := rfl
theorem exec_hbmTest (st : StackId) (ok : Bool) : exec (.hbmTest st ok) s = execHbmTest st ok s := rfl
theorem exec_tgStart (st : StackId) (ch : Fin 16) : exec (.tgStart st ch) s = execTgStart st ch s := rfl
theorem exec_tgDone (st : StackId) (ch : Fin 16) (sectors miscompares : Nat) (first : Option W64) : exec (.tgDone st ch sectors miscompares first) s = execTgDone st ch sectors miscompares first s := rfl
theorem exec_tickCtlWrite (value : W64) : exec (.tickCtlWrite value) s = execTickCtlWrite value s := rfl
theorem exec_faultClear (t : TileId) : exec (.faultClear t) s = execFaultClear t s := rfl
theorem exec_admqEnable (value : W64) : exec (.admqEnable value) s = execAdmqEnable value s := rfl
theorem exec_portEnable (p : PortId) (on : Bool) : exec (.portEnable p on) s = execPortEnable p on s := rfl
theorem exec_rcRead (offset width : Nat) : exec (.rcRead offset width) s = execRcRead offset width s := rfl
theorem exec_registerWrite (offset width : Nat) (value : W64) : exec (.registerWrite offset width value) s = execRegisterWrite offset width value s := rfl
theorem exec_porNAssert : exec (.porNAssert) s = execPorNAssert s := rfl
theorem exec_porNRelease (mgSel : Bool) (mgAddr : BitVec 2) : exec (.porNRelease mgSel mgAddr) s = execPorNRelease mgSel mgAddr s := rfl
theorem exec_header : exec (.header) s = execHeader s := rfl
theorem exec_owner : exec (.owner) s = execOwner s := rfl
theorem exec_config : exec (.config) s = execConfig s := rfl
theorem exec_firmware : exec (.firmware) s = execFirmware s := rfl
theorem exec_identity (failed : BitVec 16) : exec (.identity failed) s = execIdentity failed s := rfl
theorem exec_sealed : exec (.sealed) s = execSealed s := rfl
theorem exec_railLoss (rail : RailId) : exec (.railLoss rail) s = execRailLoss rail s := rfl
theorem exec_blockWrite (byte0 : BitVec 8) (data : List Byte) (pecOk : Bool) : exec (.blockWrite byte0 data pecOk) s = execBlockWrite byte0 data pecOk s := rfl
theorem exec_blockRead : exec (.blockRead) s = execBlockRead s := rfl
theorem exec_readByte : exec (.readByte) s = execReadByte s := rfl
theorem exec_setdasa (addr : BitVec 7) : exec (.setdasa addr) s = execSetdasa addr s := rfl
theorem exec_entdaa (addr : BitVec 7) : exec (.entdaa addr) s = execEntdaa addr s := rfl
theorem exec_bypass : exec (.bypass) s = execBypass s := rfl
theorem exec_idcode : exec (.idcode) s = execIdcode s := rfl
theorem exec_samplePreload (value : List Bool) : exec (.samplePreload value) s = execSamplePreload value s := rfl
theorem exec_extest : exec (.extest) s = execExtest s := rfl
theorem exec_extestPulse : exec (.extestPulse) s = execExtestPulse s := rfl
theorem exec_extestTrain : exec (.extestTrain) s = execExtestTrain s := rfl
theorem exec_clamp : exec (.clamp) s = execClamp s := rfl
theorem exec_highz : exec (.highz) s = execHighz s := rfl
theorem exec_controlComplexLoss (t : TuberId) (now : Nat) : exec (.controlComplexLoss t now) s = execControlComplexLoss t now s := rfl
theorem exec_regionClockOrDroopFailure (r : RegionId) (now : Nat) : exec (.regionClockOrDroopFailure r now) s = execRegionClockOrDroopFailure r now s := rfl
theorem exec_bondSelfTest (noSpareTiles : List TileId) (noSpareDies : List DieId) : exec (.bondSelfTest noSpareTiles noSpareDies) s = execBondSelfTest noSpareTiles noSpareDies s := rfl
theorem exec_bridgeTest (spareLeft : Bool) : exec (.bridgeTest spareLeft) s = execBridgeTest spareLeft s := rfl
theorem exec_poisonedReply (id join : Nat) (isBridge : Bool) : exec (.poisonedReply id join isBridge) s = execPoisonedReply id join isBridge s := rfl
theorem exec_wayGroupAvailable (t : TuberId) (g : Fin 4) : exec (.wayGroupAvailable t g) s = execWayGroupAvailable t g s := rfl
theorem exec_creditStall (p : PortId) : exec (.creditStall p) s = execCreditStall p s := rfl
theorem exec_llcLatUpdate (sl : SliceId) (meanHit meanMiss maxMiss : Nat) : exec (.llcLatUpdate sl meanHit meanMiss maxMiss) s = execLlcLatUpdate sl meanHit meanMiss maxMiss s := rfl
theorem exec_statusReply (fn : FnId) (sq : Nat) (gen : W32) (status : BitVec 16) (detail : W64) : exec (.statusReply fn sq gen status detail) s = execStatusReply fn sq gen status detail s := rfl
theorem exec_railInRegulation : exec (.railInRegulation) s = execRailInRegulation s := rfl
theorem exec_alertResponseAddress : exec (.alertResponseAddress) s = execAlertResponseAddress s := rfl
theorem exec_trstN : exec (.trstN) s = execTrstN s := rfl

end Sys2Proof.Machine
end

