-- ==== Sys2Proof/Laws/Sparse.lean ====
section
/-! SUPPORT. Laws/Sparse.lean: reading a sparse table after a change, and the canonical form, which every change keeps. -/

namespace Sys2Proof.Machine

variable {α : Type}

theorem mget_mdel (d : α) (m : List (Nat × α)) (k i : Nat) : mget d (mdel m k) i = if i = k then d else mget d m i := by
  induction m with
  | nil => simp [mdel, mget]
  | cons c m ih =>
    obtain ⟨j, v⟩ := c
    simp only [mdel]
    split
    · next h =>
      subst h
      rw [ih]
      by_cases hi : i = j
      · simp [hi]
      · have : ¬ j = i := fun e => hi e.symm
        simp [mget, hi, this]
    · next h => simp only [mget]; rw [ih]; by_cases hj : j = i
                · subst hj; simp [h]
                · simp [hj]

theorem mget_mins (d : α) (m : List (Nat × α)) (k i : Nat) (v : α) : mget d (mins m k v) i = if i = k then v else mget d m i := by
  induction m with
  | nil =>
    simp only [mins, mget]
    by_cases h : i = k
    · simp [h]
    · have : ¬ k = i := fun e => h e.symm
      simp [h, this]
  | cons c m ih =>
    obtain ⟨j, w⟩ := c
    simp only [mins]
    split
    · simp only [mget]; by_cases h : i = k
      · simp [h]
      · have : ¬ k = i := fun e => h e.symm
        simp [h, this]
    · split
      · next h => subst h; simp only [mget]; by_cases h : i = j
                  · simp [h]
                  · have : ¬ j = i := fun e => h e.symm
                    simp [h, this]
      · next h => simp only [mget, ih]; by_cases hj : j = i
                  · subst hj; simp [h]
                  · simp [hj]

/-- A table read after a write. -/
theorem mget_mput [DecidableEq α] (d : α) (m : List (Nat × α)) (k i : Nat) (v : α) :
    mget d (mput d m k v) i = if i = k then v else mget d m i := by
  unfold mput
  split
  · next h => subst h; exact mget_mdel v m k i
  · exact mget_mins d m k i v

@[simp] theorem mget_mput_self [DecidableEq α] (d : α) (m : List (Nat × α)) (k : Nat) (v : α) : mget d (mput d m k v) k = v := by
  simp [mget_mput]

theorem mget_mput_ne [DecidableEq α] (d : α) (m : List (Nat × α)) {k i : Nat} (v : α) (h : i ≠ k) : mget d (mput d m k v) i = mget d m i := by
  simp [mget_mput, h]

/-- Every entry of a table lies above `n` and differs from the default. -/
def mabove [DecidableEq α] (d : α) (n : Nat) (m : List (Nat × α)) : Prop := mwf d m = true ∧ ∀ c ∈ m.head?, n < c.1

theorem mwf_cons [DecidableEq α] (d : α) (k : Nat) (v : α) (m : List (Nat × α)) : mwf d ((k, v) :: m) = true ↔ v ≠ d ∧ mabove d k m := by
  cases m with
  | nil => simp [mwf, mabove]
  | cons c m => obtain ⟨j, w⟩ := c; simp [mwf, mabove, and_assoc, and_comm]

theorem mwf_of_mabove [DecidableEq α] {d : α} {n : Nat} {m : List (Nat × α)} (h : mabove d n m) : mwf d m = true := h.1

theorem mabove_mono [DecidableEq α] {d : α} {a b : Nat} {m : List (Nat × α)} (h : mabove d b m) (hab : a ≤ b) : mabove d a m :=
  ⟨h.1, fun c hc => Nat.lt_of_le_of_lt hab (h.2 c hc)⟩

theorem mabove_mdel [DecidableEq α] (d : α) (n k : Nat) (m : List (Nat × α)) (h : mabove d n m) : mabove d n (mdel m k) := by
  induction m generalizing n with
  | nil => simpa [mdel] using h
  | cons c m ih =>
    obtain ⟨j, v⟩ := c
    have hc := (mwf_cons d j v m).1 h.1
    have hn : n < j := h.2 (j, v) (by simp)
    simp only [mdel]
    split
    · exact mabove_mono (ih j hc.2) (Nat.le_of_lt hn)
    · exact ⟨(mwf_cons d j v _).2 ⟨hc.1, ih j hc.2⟩, by simpa using hn⟩

theorem mabove_mins [DecidableEq α] (d : α) (n k : Nat) (v : α) (hv : v ≠ d) (hk : n < k) (m : List (Nat × α)) (h : mabove d n m) :
    mabove d n (mins m k v) := by
  induction m generalizing n with
  | nil => simp [mins, mabove, mwf, hv, hk]
  | cons c m ih =>
    obtain ⟨j, w⟩ := c
    have hc := (mwf_cons d j w m).1 h.1
    have hn : n < j := h.2 (j, w) (by simp)
    simp only [mins]
    split
    · next hlt => exact ⟨(mwf_cons d k v _).2 ⟨hv, h.1, by simpa using hlt⟩, by simpa using hk⟩
    · split
      · next he => subst he; exact ⟨(mwf_cons d j v _).2 ⟨hv, hc.2⟩, by simpa using hn⟩
      · next hge hne => exact ⟨(mwf_cons d j w _).2 ⟨hc.1, ih j (by omega) hc.2⟩, by simpa using hn⟩

theorem mwf_mdel [DecidableEq α] (d : α) (m : List (Nat × α)) (k : Nat) (h : mwf d m = true) : mwf d (mdel m k) = true := by
  cases m with
  | nil => exact h
  | cons c m =>
    obtain ⟨j, v⟩ := c
    have hc := (mwf_cons d j v m).1 h
    simp only [mdel]
    split
    · exact (mabove_mdel d j k m hc.2).1
    · exact (mwf_cons d j v _).2 ⟨hc.1, mabove_mdel d j k m hc.2⟩

theorem mwf_mins [DecidableEq α] (d : α) (m : List (Nat × α)) (k : Nat) (v : α) (hv : v ≠ d) (h : mwf d m = true) : mwf d (mins m k v) = true := by
  cases m with
  | nil => simp [mins, mwf, hv]
  | cons c m =>
    obtain ⟨j, w⟩ := c
    have hc := (mwf_cons d j w m).1 h
    simp only [mins]
    split
    · next hlt => exact (mwf_cons d k v _).2 ⟨hv, h, by simpa using hlt⟩
    · split
      · next he => subst he; exact (mwf_cons d j v _).2 ⟨hv, hc.2⟩
      · next hge hne => exact (mwf_cons d j w _).2 ⟨hc.1, mabove_mins d j k v hv (by omega) m hc.2⟩

/-- A write keeps the canonical form. -/
theorem mwf_mput [DecidableEq α] (d : α) (m : List (Nat × α)) (k : Nat) (v : α) (h : mwf d m = true) : mwf d (mput d m k v) = true := by
  unfold mput
  split
  · exact mwf_mdel d m k h
  · next hv => exact mwf_mins d m k v hv h

/-- Several writes keep the canonical form. -/
theorem mwf_foldl_mput [DecidableEq α] (d : α) (l : List (Nat × α)) (m : List (Nat × α)) (h : mwf d m = true) :
    mwf d (l.foldl (fun m c => mput d m c.1 c.2) m) = true := by
  induction l generalizing m with
  | nil => exact h
  | cons c l ih => exact ih _ (mwf_mput d m c.1 c.2 h)

theorem mabove_filter [DecidableEq α] (d : α) (n : Nat) (f : Nat × α → Bool) (m : List (Nat × α)) (h : mabove d n m) : mabove d n (m.filter f) := by
  induction m generalizing n with
  | nil => simpa using h
  | cons c m ih =>
    obtain ⟨j, v⟩ := c
    have hc := (mwf_cons d j v m).1 h.1
    have hn : n < j := h.2 (j, v) (by simp)
    simp only [List.filter_cons]
    split
    · exact ⟨(mwf_cons d j v _).2 ⟨hc.1, ih j hc.2⟩, by simpa using hn⟩
    · exact mabove_mono (ih j hc.2) (Nat.le_of_lt hn)

/-- Leaving entries out keeps the canonical form. -/
theorem mwf_filter [DecidableEq α] (d : α) (f : Nat × α → Bool) (m : List (Nat × α)) (h : mwf d m = true) : mwf d (m.filter f) = true := by
  cases m with
  | nil => exact h
  | cons c m =>
    obtain ⟨j, v⟩ := c
    have hc := (mwf_cons d j v m).1 h
    simp only [List.filter_cons]
    split
    · exact (mwf_cons d j v _).2 ⟨hc.1, mabove_filter d j f m hc.2⟩
    · exact (mabove_filter d j f m hc.2).1

end Sys2Proof.Machine
end

