-- ==== Sys2Proof/Laws/State.lean ====
section
/-! SUPPORT. Laws/State.lean: one lemma for each field of the part and each named update that leaves it, true by rfl, so that no proof unfolds a
record update. -/

namespace Sys2Proof.Machine

variable (p : Part)

@[simp] theorem Part.setReg_now (r : Reg) (v : W64) (i j : Nat) : (p.setReg r v i j).now = p.now := rfl
@[simp] theorem Part.setReg_freeCtr (r : Reg) (v : W64) (i j : Nat) : (p.setReg r v i j).freeCtr = p.freeCtr := rfl
@[simp] theorem Part.setReg_tick (r : Reg) (v : W64) (i j : Nat) : (p.setReg r v i j).tick = p.tick := rfl
@[simp] theorem Part.setReg_step (r : Reg) (v : W64) (i j : Nat) : (p.setReg r v i j).step = p.step := rfl
@[simp] theorem Part.setReg_tiles (r : Reg) (v : W64) (i j : Nat) : (p.setReg r v i j).tiles = p.tiles := rfl
@[simp] theorem Part.setReg_routers (r : Reg) (v : W64) (i j : Nat) : (p.setReg r v i j).routers = p.routers := rfl
@[simp] theorem Part.setReg_flits (r : Reg) (v : W64) (i j : Nat) : (p.setReg r v i j).flits = p.flits := rfl
@[simp] theorem Part.setReg_slices (r : Reg) (v : W64) (i j : Nat) : (p.setReg r v i j).slices = p.slices := rfl
@[simp] theorem Part.setReg_mem (r : Reg) (v : W64) (i j : Nat) : (p.setReg r v i j).mem = p.mem := rfl
@[simp] theorem Part.setReg_dirty (r : Reg) (v : W64) (i j : Nat) : (p.setReg r v i j).dirty = p.dirty := rfl
@[simp] theorem Part.setReg_poison (r : Reg) (v : W64) (i j : Nat) : (p.setReg r v i j).poison = p.poison := rfl
@[simp] theorem Part.setReg_dead (r : Reg) (v : W64) (i j : Nat) : (p.setReg r v i j).dead = p.dead := rfl
@[simp] theorem Part.setReg_closing (r : Reg) (v : W64) (i j : Nat) : (p.setReg r v i j).closing = p.closing := rfl
@[simp] theorem Part.setReg_cleans (r : Reg) (v : W64) (i j : Nat) : (p.setReg r v i j).cleans = p.cleans := rfl
@[simp] theorem Part.setReg_nextId (r : Reg) (v : W64) (i j : Nat) : (p.setReg r v i j).nextId = p.nextId := rfl
@[simp] theorem Part.setReg_net (r : Reg) (v : W64) (i j : Nat) : (p.setReg r v i j).net = p.net := rfl
@[simp] theorem Part.setReg_hbm (r : Reg) (v : W64) (i j : Nat) : (p.setReg r v i j).hbm = p.hbm := rfl
@[simp] theorem Part.setReg_ports (r : Reg) (v : W64) (i j : Nat) : (p.setReg r v i j).ports = p.ports := rfl
@[simp] theorem Part.setReg_domain (r : Reg) (v : W64) (i j : Nat) : (p.setReg r v i j).domain = p.domain := rfl
@[simp] theorem Part.setReg_host (r : Reg) (v : W64) (i j : Nat) : (p.setReg r v i j).host = p.host := rfl
@[simp] theorem Part.setReg_sched (r : Reg) (v : W64) (i j : Nat) : (p.setReg r v i j).sched = p.sched := rfl
@[simp] theorem Part.setReg_power (r : Reg) (v : W64) (i j : Nat) : (p.setReg r v i j).power = p.power := rfl
@[simp] theorem Part.setReg_repair (r : Reg) (v : W64) (i j : Nat) : (p.setReg r v i j).repair = p.repair := rfl
@[simp] theorem Part.setReg_boot (r : Reg) (v : W64) (i j : Nat) : (p.setReg r v i j).boot = p.boot := rfl
@[simp] theorem Part.setReg_mgmt (r : Reg) (v : W64) (i j : Nat) : (p.setReg r v i j).mgmt = p.mgmt := rfl
@[simp] theorem Part.setReg_out (r : Reg) (v : W64) (i j : Nat) : (p.setReg r v i j).out = p.out := rfl

@[simp] theorem Part.wr_now (f : Fld) (v i j : Nat) : (p.wr f v i j).now = p.now := rfl
@[simp] theorem Part.wr_freeCtr (f : Fld) (v i j : Nat) : (p.wr f v i j).freeCtr = p.freeCtr := rfl
@[simp] theorem Part.wr_tick (f : Fld) (v i j : Nat) : (p.wr f v i j).tick = p.tick := rfl
@[simp] theorem Part.wr_step (f : Fld) (v i j : Nat) : (p.wr f v i j).step = p.step := rfl
@[simp] theorem Part.wr_tiles (f : Fld) (v i j : Nat) : (p.wr f v i j).tiles = p.tiles := rfl
@[simp] theorem Part.wr_routers (f : Fld) (v i j : Nat) : (p.wr f v i j).routers = p.routers := rfl
@[simp] theorem Part.wr_flits (f : Fld) (v i j : Nat) : (p.wr f v i j).flits = p.flits := rfl
@[simp] theorem Part.wr_slices (f : Fld) (v i j : Nat) : (p.wr f v i j).slices = p.slices := rfl
@[simp] theorem Part.wr_mem (f : Fld) (v i j : Nat) : (p.wr f v i j).mem = p.mem := rfl
@[simp] theorem Part.wr_dirty (f : Fld) (v i j : Nat) : (p.wr f v i j).dirty = p.dirty := rfl
@[simp] theorem Part.wr_poison (f : Fld) (v i j : Nat) : (p.wr f v i j).poison = p.poison := rfl
@[simp] theorem Part.wr_dead (f : Fld) (v i j : Nat) : (p.wr f v i j).dead = p.dead := rfl
@[simp] theorem Part.wr_closing (f : Fld) (v i j : Nat) : (p.wr f v i j).closing = p.closing := rfl
@[simp] theorem Part.wr_cleans (f : Fld) (v i j : Nat) : (p.wr f v i j).cleans = p.cleans := rfl
@[simp] theorem Part.wr_nextId (f : Fld) (v i j : Nat) : (p.wr f v i j).nextId = p.nextId := rfl
@[simp] theorem Part.wr_net (f : Fld) (v i j : Nat) : (p.wr f v i j).net = p.net := rfl
@[simp] theorem Part.wr_hbm (f : Fld) (v i j : Nat) : (p.wr f v i j).hbm = p.hbm := rfl
@[simp] theorem Part.wr_ports (f : Fld) (v i j : Nat) : (p.wr f v i j).ports = p.ports := rfl
@[simp] theorem Part.wr_domain (f : Fld) (v i j : Nat) : (p.wr f v i j).domain = p.domain := rfl
@[simp] theorem Part.wr_host (f : Fld) (v i j : Nat) : (p.wr f v i j).host = p.host := rfl
@[simp] theorem Part.wr_sched (f : Fld) (v i j : Nat) : (p.wr f v i j).sched = p.sched := rfl
@[simp] theorem Part.wr_power (f : Fld) (v i j : Nat) : (p.wr f v i j).power = p.power := rfl
@[simp] theorem Part.wr_repair (f : Fld) (v i j : Nat) : (p.wr f v i j).repair = p.repair := rfl
@[simp] theorem Part.wr_boot (f : Fld) (v i j : Nat) : (p.wr f v i j).boot = p.boot := rfl
@[simp] theorem Part.wr_mgmt (f : Fld) (v i j : Nat) : (p.wr f v i j).mgmt = p.mgmt := rfl
@[simp] theorem Part.wr_out (f : Fld) (v i j : Nat) : (p.wr f v i j).out = p.out := rfl

@[simp] theorem Part.set1_now (f : Fld) (i j : Nat) : (p.set1 f i j).now = p.now := rfl
@[simp] theorem Part.set1_freeCtr (f : Fld) (i j : Nat) : (p.set1 f i j).freeCtr = p.freeCtr := rfl
@[simp] theorem Part.set1_tick (f : Fld) (i j : Nat) : (p.set1 f i j).tick = p.tick := rfl
@[simp] theorem Part.set1_step (f : Fld) (i j : Nat) : (p.set1 f i j).step = p.step := rfl
@[simp] theorem Part.set1_tiles (f : Fld) (i j : Nat) : (p.set1 f i j).tiles = p.tiles := rfl
@[simp] theorem Part.set1_routers (f : Fld) (i j : Nat) : (p.set1 f i j).routers = p.routers := rfl
@[simp] theorem Part.set1_flits (f : Fld) (i j : Nat) : (p.set1 f i j).flits = p.flits := rfl
@[simp] theorem Part.set1_slices (f : Fld) (i j : Nat) : (p.set1 f i j).slices = p.slices := rfl
@[simp] theorem Part.set1_mem (f : Fld) (i j : Nat) : (p.set1 f i j).mem = p.mem := rfl
@[simp] theorem Part.set1_dirty (f : Fld) (i j : Nat) : (p.set1 f i j).dirty = p.dirty := rfl
@[simp] theorem Part.set1_poison (f : Fld) (i j : Nat) : (p.set1 f i j).poison = p.poison := rfl
@[simp] theorem Part.set1_dead (f : Fld) (i j : Nat) : (p.set1 f i j).dead = p.dead := rfl
@[simp] theorem Part.set1_closing (f : Fld) (i j : Nat) : (p.set1 f i j).closing = p.closing := rfl
@[simp] theorem Part.set1_cleans (f : Fld) (i j : Nat) : (p.set1 f i j).cleans = p.cleans := rfl
@[simp] theorem Part.set1_nextId (f : Fld) (i j : Nat) : (p.set1 f i j).nextId = p.nextId := rfl
@[simp] theorem Part.set1_net (f : Fld) (i j : Nat) : (p.set1 f i j).net = p.net := rfl
@[simp] theorem Part.set1_hbm (f : Fld) (i j : Nat) : (p.set1 f i j).hbm = p.hbm := rfl
@[simp] theorem Part.set1_ports (f : Fld) (i j : Nat) : (p.set1 f i j).ports = p.ports := rfl
@[simp] theorem Part.set1_domain (f : Fld) (i j : Nat) : (p.set1 f i j).domain = p.domain := rfl
@[simp] theorem Part.set1_host (f : Fld) (i j : Nat) : (p.set1 f i j).host = p.host := rfl
@[simp] theorem Part.set1_sched (f : Fld) (i j : Nat) : (p.set1 f i j).sched = p.sched := rfl
@[simp] theorem Part.set1_power (f : Fld) (i j : Nat) : (p.set1 f i j).power = p.power := rfl
@[simp] theorem Part.set1_repair (f : Fld) (i j : Nat) : (p.set1 f i j).repair = p.repair := rfl
@[simp] theorem Part.set1_boot (f : Fld) (i j : Nat) : (p.set1 f i j).boot = p.boot := rfl
@[simp] theorem Part.set1_mgmt (f : Fld) (i j : Nat) : (p.set1 f i j).mgmt = p.mgmt := rfl
@[simp] theorem Part.set1_out (f : Fld) (i j : Nat) : (p.set1 f i j).out = p.out := rfl

@[simp] theorem Part.inc_now (f : Fld) (n i j : Nat) : (p.inc f n i j).now = p.now := rfl
@[simp] theorem Part.inc_freeCtr (f : Fld) (n i j : Nat) : (p.inc f n i j).freeCtr = p.freeCtr := rfl
@[simp] theorem Part.inc_tick (f : Fld) (n i j : Nat) : (p.inc f n i j).tick = p.tick := rfl
@[simp] theorem Part.inc_step (f : Fld) (n i j : Nat) : (p.inc f n i j).step = p.step := rfl
@[simp] theorem Part.inc_tiles (f : Fld) (n i j : Nat) : (p.inc f n i j).tiles = p.tiles := rfl
@[simp] theorem Part.inc_routers (f : Fld) (n i j : Nat) : (p.inc f n i j).routers = p.routers := rfl
@[simp] theorem Part.inc_flits (f : Fld) (n i j : Nat) : (p.inc f n i j).flits = p.flits := rfl
@[simp] theorem Part.inc_slices (f : Fld) (n i j : Nat) : (p.inc f n i j).slices = p.slices := rfl
@[simp] theorem Part.inc_mem (f : Fld) (n i j : Nat) : (p.inc f n i j).mem = p.mem := rfl
@[simp] theorem Part.inc_dirty (f : Fld) (n i j : Nat) : (p.inc f n i j).dirty = p.dirty := rfl
@[simp] theorem Part.inc_poison (f : Fld) (n i j : Nat) : (p.inc f n i j).poison = p.poison := rfl
@[simp] theorem Part.inc_dead (f : Fld) (n i j : Nat) : (p.inc f n i j).dead = p.dead := rfl
@[simp] theorem Part.inc_closing (f : Fld) (n i j : Nat) : (p.inc f n i j).closing = p.closing := rfl
@[simp] theorem Part.inc_cleans (f : Fld) (n i j : Nat) : (p.inc f n i j).cleans = p.cleans := rfl
@[simp] theorem Part.inc_nextId (f : Fld) (n i j : Nat) : (p.inc f n i j).nextId = p.nextId := rfl
@[simp] theorem Part.inc_net (f : Fld) (n i j : Nat) : (p.inc f n i j).net = p.net := rfl
@[simp] theorem Part.inc_hbm (f : Fld) (n i j : Nat) : (p.inc f n i j).hbm = p.hbm := rfl
@[simp] theorem Part.inc_ports (f : Fld) (n i j : Nat) : (p.inc f n i j).ports = p.ports := rfl
@[simp] theorem Part.inc_domain (f : Fld) (n i j : Nat) : (p.inc f n i j).domain = p.domain := rfl
@[simp] theorem Part.inc_host (f : Fld) (n i j : Nat) : (p.inc f n i j).host = p.host := rfl
@[simp] theorem Part.inc_sched (f : Fld) (n i j : Nat) : (p.inc f n i j).sched = p.sched := rfl
@[simp] theorem Part.inc_power (f : Fld) (n i j : Nat) : (p.inc f n i j).power = p.power := rfl
@[simp] theorem Part.inc_repair (f : Fld) (n i j : Nat) : (p.inc f n i j).repair = p.repair := rfl
@[simp] theorem Part.inc_boot (f : Fld) (n i j : Nat) : (p.inc f n i j).boot = p.boot := rfl
@[simp] theorem Part.inc_mgmt (f : Fld) (n i j : Nat) : (p.inc f n i j).mgmt = p.mgmt := rfl
@[simp] theorem Part.inc_out (f : Fld) (n i j : Nat) : (p.inc f n i j).out = p.out := rfl

@[simp] theorem Part.at_freeCtr (t : Nat) : (p.at t).freeCtr = p.freeCtr := rfl
@[simp] theorem Part.at_ctl (t : Nat) : (p.at t).ctl = p.ctl := rfl
@[simp] theorem Part.at_tick (t : Nat) : (p.at t).tick = p.tick := rfl
@[simp] theorem Part.at_step (t : Nat) : (p.at t).step = p.step := rfl
@[simp] theorem Part.at_tiles (t : Nat) : (p.at t).tiles = p.tiles := rfl
@[simp] theorem Part.at_routers (t : Nat) : (p.at t).routers = p.routers := rfl
@[simp] theorem Part.at_flits (t : Nat) : (p.at t).flits = p.flits := rfl
@[simp] theorem Part.at_slices (t : Nat) : (p.at t).slices = p.slices := rfl
@[simp] theorem Part.at_mem (t : Nat) : (p.at t).mem = p.mem := rfl
@[simp] theorem Part.at_dirty (t : Nat) : (p.at t).dirty = p.dirty := rfl
@[simp] theorem Part.at_poison (t : Nat) : (p.at t).poison = p.poison := rfl
@[simp] theorem Part.at_dead (t : Nat) : (p.at t).dead = p.dead := rfl
@[simp] theorem Part.at_closing (t : Nat) : (p.at t).closing = p.closing := rfl
@[simp] theorem Part.at_cleans (t : Nat) : (p.at t).cleans = p.cleans := rfl
@[simp] theorem Part.at_nextId (t : Nat) : (p.at t).nextId = p.nextId := rfl
@[simp] theorem Part.at_net (t : Nat) : (p.at t).net = p.net := rfl
@[simp] theorem Part.at_hbm (t : Nat) : (p.at t).hbm = p.hbm := rfl
@[simp] theorem Part.at_ports (t : Nat) : (p.at t).ports = p.ports := rfl
@[simp] theorem Part.at_domain (t : Nat) : (p.at t).domain = p.domain := rfl
@[simp] theorem Part.at_host (t : Nat) : (p.at t).host = p.host := rfl
@[simp] theorem Part.at_sched (t : Nat) : (p.at t).sched = p.sched := rfl
@[simp] theorem Part.at_power (t : Nat) : (p.at t).power = p.power := rfl
@[simp] theorem Part.at_repair (t : Nat) : (p.at t).repair = p.repair := rfl
@[simp] theorem Part.at_boot (t : Nat) : (p.at t).boot = p.boot := rfl
@[simp] theorem Part.at_mgmt (t : Nat) : (p.at t).mgmt = p.mgmt := rfl
@[simp] theorem Part.at_out (t : Nat) : (p.at t).out = p.out := rfl

@[simp] theorem Part.nextFree_now : (p.nextFree).now = p.now := rfl
@[simp] theorem Part.nextFree_ctl : (p.nextFree).ctl = p.ctl := rfl
@[simp] theorem Part.nextFree_tick : (p.nextFree).tick = p.tick := rfl
@[simp] theorem Part.nextFree_step : (p.nextFree).step = p.step := rfl
@[simp] theorem Part.nextFree_tiles : (p.nextFree).tiles = p.tiles := rfl
@[simp] theorem Part.nextFree_routers : (p.nextFree).routers = p.routers := rfl
@[simp] theorem Part.nextFree_flits : (p.nextFree).flits = p.flits := rfl
@[simp] theorem Part.nextFree_slices : (p.nextFree).slices = p.slices := rfl
@[simp] theorem Part.nextFree_mem : (p.nextFree).mem = p.mem := rfl
@[simp] theorem Part.nextFree_dirty : (p.nextFree).dirty = p.dirty := rfl
@[simp] theorem Part.nextFree_poison : (p.nextFree).poison = p.poison := rfl
@[simp] theorem Part.nextFree_dead : (p.nextFree).dead = p.dead := rfl
@[simp] theorem Part.nextFree_closing : (p.nextFree).closing = p.closing := rfl
@[simp] theorem Part.nextFree_cleans : (p.nextFree).cleans = p.cleans := rfl
@[simp] theorem Part.nextFree_nextId : (p.nextFree).nextId = p.nextId := rfl
@[simp] theorem Part.nextFree_net : (p.nextFree).net = p.net := rfl
@[simp] theorem Part.nextFree_hbm : (p.nextFree).hbm = p.hbm := rfl
@[simp] theorem Part.nextFree_ports : (p.nextFree).ports = p.ports := rfl
@[simp] theorem Part.nextFree_domain : (p.nextFree).domain = p.domain := rfl
@[simp] theorem Part.nextFree_host : (p.nextFree).host = p.host := rfl
@[simp] theorem Part.nextFree_sched : (p.nextFree).sched = p.sched := rfl
@[simp] theorem Part.nextFree_power : (p.nextFree).power = p.power := rfl
@[simp] theorem Part.nextFree_repair : (p.nextFree).repair = p.repair := rfl
@[simp] theorem Part.nextFree_boot : (p.nextFree).boot = p.boot := rfl
@[simp] theorem Part.nextFree_mgmt : (p.nextFree).mgmt = p.mgmt := rfl
@[simp] theorem Part.nextFree_out : (p.nextFree).out = p.out := rfl

@[simp] theorem Part.setTile_now (t : Nat) (x : Tile) : (p.setTile t x).now = p.now := rfl
@[simp] theorem Part.setTile_freeCtr (t : Nat) (x : Tile) : (p.setTile t x).freeCtr = p.freeCtr := rfl
@[simp] theorem Part.setTile_ctl (t : Nat) (x : Tile) : (p.setTile t x).ctl = p.ctl := rfl
@[simp] theorem Part.setTile_tick (t : Nat) (x : Tile) : (p.setTile t x).tick = p.tick := rfl
@[simp] theorem Part.setTile_step (t : Nat) (x : Tile) : (p.setTile t x).step = p.step := rfl
@[simp] theorem Part.setTile_routers (t : Nat) (x : Tile) : (p.setTile t x).routers = p.routers := rfl
@[simp] theorem Part.setTile_flits (t : Nat) (x : Tile) : (p.setTile t x).flits = p.flits := rfl
@[simp] theorem Part.setTile_slices (t : Nat) (x : Tile) : (p.setTile t x).slices = p.slices := rfl
@[simp] theorem Part.setTile_mem (t : Nat) (x : Tile) : (p.setTile t x).mem = p.mem := rfl
@[simp] theorem Part.setTile_dirty (t : Nat) (x : Tile) : (p.setTile t x).dirty = p.dirty := rfl
@[simp] theorem Part.setTile_poison (t : Nat) (x : Tile) : (p.setTile t x).poison = p.poison := rfl
@[simp] theorem Part.setTile_dead (t : Nat) (x : Tile) : (p.setTile t x).dead = p.dead := rfl
@[simp] theorem Part.setTile_closing (t : Nat) (x : Tile) : (p.setTile t x).closing = p.closing := rfl
@[simp] theorem Part.setTile_cleans (t : Nat) (x : Tile) : (p.setTile t x).cleans = p.cleans := rfl
@[simp] theorem Part.setTile_nextId (t : Nat) (x : Tile) : (p.setTile t x).nextId = p.nextId := rfl
@[simp] theorem Part.setTile_net (t : Nat) (x : Tile) : (p.setTile t x).net = p.net := rfl
@[simp] theorem Part.setTile_hbm (t : Nat) (x : Tile) : (p.setTile t x).hbm = p.hbm := rfl
@[simp] theorem Part.setTile_ports (t : Nat) (x : Tile) : (p.setTile t x).ports = p.ports := rfl
@[simp] theorem Part.setTile_domain (t : Nat) (x : Tile) : (p.setTile t x).domain = p.domain := rfl
@[simp] theorem Part.setTile_host (t : Nat) (x : Tile) : (p.setTile t x).host = p.host := rfl
@[simp] theorem Part.setTile_sched (t : Nat) (x : Tile) : (p.setTile t x).sched = p.sched := rfl
@[simp] theorem Part.setTile_power (t : Nat) (x : Tile) : (p.setTile t x).power = p.power := rfl
@[simp] theorem Part.setTile_repair (t : Nat) (x : Tile) : (p.setTile t x).repair = p.repair := rfl
@[simp] theorem Part.setTile_boot (t : Nat) (x : Tile) : (p.setTile t x).boot = p.boot := rfl
@[simp] theorem Part.setTile_mgmt (t : Nat) (x : Tile) : (p.setTile t x).mgmt = p.mgmt := rfl
@[simp] theorem Part.setTile_out (t : Nat) (x : Tile) : (p.setTile t x).out = p.out := rfl

@[simp] theorem Part.modTile_now (t : Nat) (f : Tile → Tile) : (p.modTile t f).now = p.now := rfl
@[simp] theorem Part.modTile_freeCtr (t : Nat) (f : Tile → Tile) : (p.modTile t f).freeCtr = p.freeCtr := rfl
@[simp] theorem Part.modTile_ctl (t : Nat) (f : Tile → Tile) : (p.modTile t f).ctl = p.ctl := rfl
@[simp] theorem Part.modTile_tick (t : Nat) (f : Tile → Tile) : (p.modTile t f).tick = p.tick := rfl
@[simp] theorem Part.modTile_step (t : Nat) (f : Tile → Tile) : (p.modTile t f).step = p.step := rfl
@[simp] theorem Part.modTile_routers (t : Nat) (f : Tile → Tile) : (p.modTile t f).routers = p.routers := rfl
@[simp] theorem Part.modTile_flits (t : Nat) (f : Tile → Tile) : (p.modTile t f).flits = p.flits := rfl
@[simp] theorem Part.modTile_slices (t : Nat) (f : Tile → Tile) : (p.modTile t f).slices = p.slices := rfl
@[simp] theorem Part.modTile_mem (t : Nat) (f : Tile → Tile) : (p.modTile t f).mem = p.mem := rfl
@[simp] theorem Part.modTile_dirty (t : Nat) (f : Tile → Tile) : (p.modTile t f).dirty = p.dirty := rfl
@[simp] theorem Part.modTile_poison (t : Nat) (f : Tile → Tile) : (p.modTile t f).poison = p.poison := rfl
@[simp] theorem Part.modTile_dead (t : Nat) (f : Tile → Tile) : (p.modTile t f).dead = p.dead := rfl
@[simp] theorem Part.modTile_closing (t : Nat) (f : Tile → Tile) : (p.modTile t f).closing = p.closing := rfl
@[simp] theorem Part.modTile_cleans (t : Nat) (f : Tile → Tile) : (p.modTile t f).cleans = p.cleans := rfl
@[simp] theorem Part.modTile_nextId (t : Nat) (f : Tile → Tile) : (p.modTile t f).nextId = p.nextId := rfl
@[simp] theorem Part.modTile_net (t : Nat) (f : Tile → Tile) : (p.modTile t f).net = p.net := rfl
@[simp] theorem Part.modTile_hbm (t : Nat) (f : Tile → Tile) : (p.modTile t f).hbm = p.hbm := rfl
@[simp] theorem Part.modTile_ports (t : Nat) (f : Tile → Tile) : (p.modTile t f).ports = p.ports := rfl
@[simp] theorem Part.modTile_domain (t : Nat) (f : Tile → Tile) : (p.modTile t f).domain = p.domain := rfl
@[simp] theorem Part.modTile_host (t : Nat) (f : Tile → Tile) : (p.modTile t f).host = p.host := rfl
@[simp] theorem Part.modTile_sched (t : Nat) (f : Tile → Tile) : (p.modTile t f).sched = p.sched := rfl
@[simp] theorem Part.modTile_power (t : Nat) (f : Tile → Tile) : (p.modTile t f).power = p.power := rfl
@[simp] theorem Part.modTile_repair (t : Nat) (f : Tile → Tile) : (p.modTile t f).repair = p.repair := rfl
@[simp] theorem Part.modTile_boot (t : Nat) (f : Tile → Tile) : (p.modTile t f).boot = p.boot := rfl
@[simp] theorem Part.modTile_mgmt (t : Nat) (f : Tile → Tile) : (p.modTile t f).mgmt = p.mgmt := rfl
@[simp] theorem Part.modTile_out (t : Nat) (f : Tile → Tile) : (p.modTile t f).out = p.out := rfl

@[simp] theorem Part.setGroup_now (t g : Nat) (y : Group) : (p.setGroup t g y).now = p.now := rfl
@[simp] theorem Part.setGroup_freeCtr (t g : Nat) (y : Group) : (p.setGroup t g y).freeCtr = p.freeCtr := rfl
@[simp] theorem Part.setGroup_ctl (t g : Nat) (y : Group) : (p.setGroup t g y).ctl = p.ctl := rfl
@[simp] theorem Part.setGroup_tick (t g : Nat) (y : Group) : (p.setGroup t g y).tick = p.tick := rfl
@[simp] theorem Part.setGroup_step (t g : Nat) (y : Group) : (p.setGroup t g y).step = p.step := rfl
@[simp] theorem Part.setGroup_routers (t g : Nat) (y : Group) : (p.setGroup t g y).routers = p.routers := rfl
@[simp] theorem Part.setGroup_flits (t g : Nat) (y : Group) : (p.setGroup t g y).flits = p.flits := rfl
@[simp] theorem Part.setGroup_slices (t g : Nat) (y : Group) : (p.setGroup t g y).slices = p.slices := rfl
@[simp] theorem Part.setGroup_mem (t g : Nat) (y : Group) : (p.setGroup t g y).mem = p.mem := rfl
@[simp] theorem Part.setGroup_dirty (t g : Nat) (y : Group) : (p.setGroup t g y).dirty = p.dirty := rfl
@[simp] theorem Part.setGroup_poison (t g : Nat) (y : Group) : (p.setGroup t g y).poison = p.poison := rfl
@[simp] theorem Part.setGroup_dead (t g : Nat) (y : Group) : (p.setGroup t g y).dead = p.dead := rfl
@[simp] theorem Part.setGroup_closing (t g : Nat) (y : Group) : (p.setGroup t g y).closing = p.closing := rfl
@[simp] theorem Part.setGroup_cleans (t g : Nat) (y : Group) : (p.setGroup t g y).cleans = p.cleans := rfl
@[simp] theorem Part.setGroup_nextId (t g : Nat) (y : Group) : (p.setGroup t g y).nextId = p.nextId := rfl
@[simp] theorem Part.setGroup_net (t g : Nat) (y : Group) : (p.setGroup t g y).net = p.net := rfl
@[simp] theorem Part.setGroup_hbm (t g : Nat) (y : Group) : (p.setGroup t g y).hbm = p.hbm := rfl
@[simp] theorem Part.setGroup_ports (t g : Nat) (y : Group) : (p.setGroup t g y).ports = p.ports := rfl
@[simp] theorem Part.setGroup_domain (t g : Nat) (y : Group) : (p.setGroup t g y).domain = p.domain := rfl
@[simp] theorem Part.setGroup_host (t g : Nat) (y : Group) : (p.setGroup t g y).host = p.host := rfl
@[simp] theorem Part.setGroup_sched (t g : Nat) (y : Group) : (p.setGroup t g y).sched = p.sched := rfl
@[simp] theorem Part.setGroup_power (t g : Nat) (y : Group) : (p.setGroup t g y).power = p.power := rfl
@[simp] theorem Part.setGroup_repair (t g : Nat) (y : Group) : (p.setGroup t g y).repair = p.repair := rfl
@[simp] theorem Part.setGroup_boot (t g : Nat) (y : Group) : (p.setGroup t g y).boot = p.boot := rfl
@[simp] theorem Part.setGroup_mgmt (t g : Nat) (y : Group) : (p.setGroup t g y).mgmt = p.mgmt := rfl
@[simp] theorem Part.setGroup_out (t g : Nat) (y : Group) : (p.setGroup t g y).out = p.out := rfl

@[simp] theorem Part.modGroup_now (t g : Nat) (f : Group → Group) : (p.modGroup t g f).now = p.now := rfl
@[simp] theorem Part.modGroup_freeCtr (t g : Nat) (f : Group → Group) : (p.modGroup t g f).freeCtr = p.freeCtr := rfl
@[simp] theorem Part.modGroup_ctl (t g : Nat) (f : Group → Group) : (p.modGroup t g f).ctl = p.ctl := rfl
@[simp] theorem Part.modGroup_tick (t g : Nat) (f : Group → Group) : (p.modGroup t g f).tick = p.tick := rfl
@[simp] theorem Part.modGroup_step (t g : Nat) (f : Group → Group) : (p.modGroup t g f).step = p.step := rfl
@[simp] theorem Part.modGroup_routers (t g : Nat) (f : Group → Group) : (p.modGroup t g f).routers = p.routers := rfl
@[simp] theorem Part.modGroup_flits (t g : Nat) (f : Group → Group) : (p.modGroup t g f).flits = p.flits := rfl
@[simp] theorem Part.modGroup_slices (t g : Nat) (f : Group → Group) : (p.modGroup t g f).slices = p.slices := rfl
@[simp] theorem Part.modGroup_mem (t g : Nat) (f : Group → Group) : (p.modGroup t g f).mem = p.mem := rfl
@[simp] theorem Part.modGroup_dirty (t g : Nat) (f : Group → Group) : (p.modGroup t g f).dirty = p.dirty := rfl
@[simp] theorem Part.modGroup_poison (t g : Nat) (f : Group → Group) : (p.modGroup t g f).poison = p.poison := rfl
@[simp] theorem Part.modGroup_dead (t g : Nat) (f : Group → Group) : (p.modGroup t g f).dead = p.dead := rfl
@[simp] theorem Part.modGroup_closing (t g : Nat) (f : Group → Group) : (p.modGroup t g f).closing = p.closing := rfl
@[simp] theorem Part.modGroup_cleans (t g : Nat) (f : Group → Group) : (p.modGroup t g f).cleans = p.cleans := rfl
@[simp] theorem Part.modGroup_nextId (t g : Nat) (f : Group → Group) : (p.modGroup t g f).nextId = p.nextId := rfl
@[simp] theorem Part.modGroup_net (t g : Nat) (f : Group → Group) : (p.modGroup t g f).net = p.net := rfl
@[simp] theorem Part.modGroup_hbm (t g : Nat) (f : Group → Group) : (p.modGroup t g f).hbm = p.hbm := rfl
@[simp] theorem Part.modGroup_ports (t g : Nat) (f : Group → Group) : (p.modGroup t g f).ports = p.ports := rfl
@[simp] theorem Part.modGroup_domain (t g : Nat) (f : Group → Group) : (p.modGroup t g f).domain = p.domain := rfl
@[simp] theorem Part.modGroup_host (t g : Nat) (f : Group → Group) : (p.modGroup t g f).host = p.host := rfl
@[simp] theorem Part.modGroup_sched (t g : Nat) (f : Group → Group) : (p.modGroup t g f).sched = p.sched := rfl
@[simp] theorem Part.modGroup_power (t g : Nat) (f : Group → Group) : (p.modGroup t g f).power = p.power := rfl
@[simp] theorem Part.modGroup_repair (t g : Nat) (f : Group → Group) : (p.modGroup t g f).repair = p.repair := rfl
@[simp] theorem Part.modGroup_boot (t g : Nat) (f : Group → Group) : (p.modGroup t g f).boot = p.boot := rfl
@[simp] theorem Part.modGroup_mgmt (t g : Nat) (f : Group → Group) : (p.modGroup t g f).mgmt = p.mgmt := rfl
@[simp] theorem Part.modGroup_out (t g : Nat) (f : Group → Group) : (p.modGroup t g f).out = p.out := rfl

@[simp] theorem Part.setSlice_now (i : Nat) (x : Slice) : (p.setSlice i x).now = p.now := rfl
@[simp] theorem Part.setSlice_freeCtr (i : Nat) (x : Slice) : (p.setSlice i x).freeCtr = p.freeCtr := rfl
@[simp] theorem Part.setSlice_ctl (i : Nat) (x : Slice) : (p.setSlice i x).ctl = p.ctl := rfl
@[simp] theorem Part.setSlice_tick (i : Nat) (x : Slice) : (p.setSlice i x).tick = p.tick := rfl
@[simp] theorem Part.setSlice_step (i : Nat) (x : Slice) : (p.setSlice i x).step = p.step := rfl
@[simp] theorem Part.setSlice_tiles (i : Nat) (x : Slice) : (p.setSlice i x).tiles = p.tiles := rfl
@[simp] theorem Part.setSlice_routers (i : Nat) (x : Slice) : (p.setSlice i x).routers = p.routers := rfl
@[simp] theorem Part.setSlice_flits (i : Nat) (x : Slice) : (p.setSlice i x).flits = p.flits := rfl
@[simp] theorem Part.setSlice_mem (i : Nat) (x : Slice) : (p.setSlice i x).mem = p.mem := rfl
@[simp] theorem Part.setSlice_dirty (i : Nat) (x : Slice) : (p.setSlice i x).dirty = p.dirty := rfl
@[simp] theorem Part.setSlice_poison (i : Nat) (x : Slice) : (p.setSlice i x).poison = p.poison := rfl
@[simp] theorem Part.setSlice_dead (i : Nat) (x : Slice) : (p.setSlice i x).dead = p.dead := rfl
@[simp] theorem Part.setSlice_closing (i : Nat) (x : Slice) : (p.setSlice i x).closing = p.closing := rfl
@[simp] theorem Part.setSlice_cleans (i : Nat) (x : Slice) : (p.setSlice i x).cleans = p.cleans := rfl
@[simp] theorem Part.setSlice_nextId (i : Nat) (x : Slice) : (p.setSlice i x).nextId = p.nextId := rfl
@[simp] theorem Part.setSlice_net (i : Nat) (x : Slice) : (p.setSlice i x).net = p.net := rfl
@[simp] theorem Part.setSlice_hbm (i : Nat) (x : Slice) : (p.setSlice i x).hbm = p.hbm := rfl
@[simp] theorem Part.setSlice_ports (i : Nat) (x : Slice) : (p.setSlice i x).ports = p.ports := rfl
@[simp] theorem Part.setSlice_domain (i : Nat) (x : Slice) : (p.setSlice i x).domain = p.domain := rfl
@[simp] theorem Part.setSlice_host (i : Nat) (x : Slice) : (p.setSlice i x).host = p.host := rfl
@[simp] theorem Part.setSlice_sched (i : Nat) (x : Slice) : (p.setSlice i x).sched = p.sched := rfl
@[simp] theorem Part.setSlice_power (i : Nat) (x : Slice) : (p.setSlice i x).power = p.power := rfl
@[simp] theorem Part.setSlice_repair (i : Nat) (x : Slice) : (p.setSlice i x).repair = p.repair := rfl
@[simp] theorem Part.setSlice_boot (i : Nat) (x : Slice) : (p.setSlice i x).boot = p.boot := rfl
@[simp] theorem Part.setSlice_mgmt (i : Nat) (x : Slice) : (p.setSlice i x).mgmt = p.mgmt := rfl
@[simp] theorem Part.setSlice_out (i : Nat) (x : Slice) : (p.setSlice i x).out = p.out := rfl

@[simp] theorem Part.modSlice_now (i : Nat) (f : Slice → Slice) : (p.modSlice i f).now = p.now := rfl
@[simp] theorem Part.modSlice_freeCtr (i : Nat) (f : Slice → Slice) : (p.modSlice i f).freeCtr = p.freeCtr := rfl
@[simp] theorem Part.modSlice_ctl (i : Nat) (f : Slice → Slice) : (p.modSlice i f).ctl = p.ctl := rfl
@[simp] theorem Part.modSlice_tick (i : Nat) (f : Slice → Slice) : (p.modSlice i f).tick = p.tick := rfl
@[simp] theorem Part.modSlice_step (i : Nat) (f : Slice → Slice) : (p.modSlice i f).step = p.step := rfl
@[simp] theorem Part.modSlice_tiles (i : Nat) (f : Slice → Slice) : (p.modSlice i f).tiles = p.tiles := rfl
@[simp] theorem Part.modSlice_routers (i : Nat) (f : Slice → Slice) : (p.modSlice i f).routers = p.routers := rfl
@[simp] theorem Part.modSlice_flits (i : Nat) (f : Slice → Slice) : (p.modSlice i f).flits = p.flits := rfl
@[simp] theorem Part.modSlice_mem (i : Nat) (f : Slice → Slice) : (p.modSlice i f).mem = p.mem := rfl
@[simp] theorem Part.modSlice_dirty (i : Nat) (f : Slice → Slice) : (p.modSlice i f).dirty = p.dirty := rfl
@[simp] theorem Part.modSlice_poison (i : Nat) (f : Slice → Slice) : (p.modSlice i f).poison = p.poison := rfl
@[simp] theorem Part.modSlice_dead (i : Nat) (f : Slice → Slice) : (p.modSlice i f).dead = p.dead := rfl
@[simp] theorem Part.modSlice_closing (i : Nat) (f : Slice → Slice) : (p.modSlice i f).closing = p.closing := rfl
@[simp] theorem Part.modSlice_cleans (i : Nat) (f : Slice → Slice) : (p.modSlice i f).cleans = p.cleans := rfl
@[simp] theorem Part.modSlice_nextId (i : Nat) (f : Slice → Slice) : (p.modSlice i f).nextId = p.nextId := rfl
@[simp] theorem Part.modSlice_net (i : Nat) (f : Slice → Slice) : (p.modSlice i f).net = p.net := rfl
@[simp] theorem Part.modSlice_hbm (i : Nat) (f : Slice → Slice) : (p.modSlice i f).hbm = p.hbm := rfl
@[simp] theorem Part.modSlice_ports (i : Nat) (f : Slice → Slice) : (p.modSlice i f).ports = p.ports := rfl
@[simp] theorem Part.modSlice_domain (i : Nat) (f : Slice → Slice) : (p.modSlice i f).domain = p.domain := rfl
@[simp] theorem Part.modSlice_host (i : Nat) (f : Slice → Slice) : (p.modSlice i f).host = p.host := rfl
@[simp] theorem Part.modSlice_sched (i : Nat) (f : Slice → Slice) : (p.modSlice i f).sched = p.sched := rfl
@[simp] theorem Part.modSlice_power (i : Nat) (f : Slice → Slice) : (p.modSlice i f).power = p.power := rfl
@[simp] theorem Part.modSlice_repair (i : Nat) (f : Slice → Slice) : (p.modSlice i f).repair = p.repair := rfl
@[simp] theorem Part.modSlice_boot (i : Nat) (f : Slice → Slice) : (p.modSlice i f).boot = p.boot := rfl
@[simp] theorem Part.modSlice_mgmt (i : Nat) (f : Slice → Slice) : (p.modSlice i f).mgmt = p.mgmt := rfl
@[simp] theorem Part.modSlice_out (i : Nat) (f : Slice → Slice) : (p.modSlice i f).out = p.out := rfl

@[simp] theorem Part.setRouter_now (r : Nat) (x : Router) : (p.setRouter r x).now = p.now := rfl
@[simp] theorem Part.setRouter_freeCtr (r : Nat) (x : Router) : (p.setRouter r x).freeCtr = p.freeCtr := rfl
@[simp] theorem Part.setRouter_ctl (r : Nat) (x : Router) : (p.setRouter r x).ctl = p.ctl := rfl
@[simp] theorem Part.setRouter_tick (r : Nat) (x : Router) : (p.setRouter r x).tick = p.tick := rfl
@[simp] theorem Part.setRouter_step (r : Nat) (x : Router) : (p.setRouter r x).step = p.step := rfl
@[simp] theorem Part.setRouter_tiles (r : Nat) (x : Router) : (p.setRouter r x).tiles = p.tiles := rfl
@[simp] theorem Part.setRouter_flits (r : Nat) (x : Router) : (p.setRouter r x).flits = p.flits := rfl
@[simp] theorem Part.setRouter_slices (r : Nat) (x : Router) : (p.setRouter r x).slices = p.slices := rfl
@[simp] theorem Part.setRouter_mem (r : Nat) (x : Router) : (p.setRouter r x).mem = p.mem := rfl
@[simp] theorem Part.setRouter_dirty (r : Nat) (x : Router) : (p.setRouter r x).dirty = p.dirty := rfl
@[simp] theorem Part.setRouter_poison (r : Nat) (x : Router) : (p.setRouter r x).poison = p.poison := rfl
@[simp] theorem Part.setRouter_dead (r : Nat) (x : Router) : (p.setRouter r x).dead = p.dead := rfl
@[simp] theorem Part.setRouter_closing (r : Nat) (x : Router) : (p.setRouter r x).closing = p.closing := rfl
@[simp] theorem Part.setRouter_cleans (r : Nat) (x : Router) : (p.setRouter r x).cleans = p.cleans := rfl
@[simp] theorem Part.setRouter_nextId (r : Nat) (x : Router) : (p.setRouter r x).nextId = p.nextId := rfl
@[simp] theorem Part.setRouter_net (r : Nat) (x : Router) : (p.setRouter r x).net = p.net := rfl
@[simp] theorem Part.setRouter_hbm (r : Nat) (x : Router) : (p.setRouter r x).hbm = p.hbm := rfl
@[simp] theorem Part.setRouter_ports (r : Nat) (x : Router) : (p.setRouter r x).ports = p.ports := rfl
@[simp] theorem Part.setRouter_domain (r : Nat) (x : Router) : (p.setRouter r x).domain = p.domain := rfl
@[simp] theorem Part.setRouter_host (r : Nat) (x : Router) : (p.setRouter r x).host = p.host := rfl
@[simp] theorem Part.setRouter_sched (r : Nat) (x : Router) : (p.setRouter r x).sched = p.sched := rfl
@[simp] theorem Part.setRouter_power (r : Nat) (x : Router) : (p.setRouter r x).power = p.power := rfl
@[simp] theorem Part.setRouter_repair (r : Nat) (x : Router) : (p.setRouter r x).repair = p.repair := rfl
@[simp] theorem Part.setRouter_boot (r : Nat) (x : Router) : (p.setRouter r x).boot = p.boot := rfl
@[simp] theorem Part.setRouter_mgmt (r : Nat) (x : Router) : (p.setRouter r x).mgmt = p.mgmt := rfl
@[simp] theorem Part.setRouter_out (r : Nat) (x : Router) : (p.setRouter r x).out = p.out := rfl

@[simp] theorem Part.setPort_now (i : Nat) (x : Port) : (p.setPort i x).now = p.now := rfl
@[simp] theorem Part.setPort_freeCtr (i : Nat) (x : Port) : (p.setPort i x).freeCtr = p.freeCtr := rfl
@[simp] theorem Part.setPort_ctl (i : Nat) (x : Port) : (p.setPort i x).ctl = p.ctl := rfl
@[simp] theorem Part.setPort_tick (i : Nat) (x : Port) : (p.setPort i x).tick = p.tick := rfl
@[simp] theorem Part.setPort_step (i : Nat) (x : Port) : (p.setPort i x).step = p.step := rfl
@[simp] theorem Part.setPort_tiles (i : Nat) (x : Port) : (p.setPort i x).tiles = p.tiles := rfl
@[simp] theorem Part.setPort_routers (i : Nat) (x : Port) : (p.setPort i x).routers = p.routers := rfl
@[simp] theorem Part.setPort_flits (i : Nat) (x : Port) : (p.setPort i x).flits = p.flits := rfl
@[simp] theorem Part.setPort_slices (i : Nat) (x : Port) : (p.setPort i x).slices = p.slices := rfl
@[simp] theorem Part.setPort_mem (i : Nat) (x : Port) : (p.setPort i x).mem = p.mem := rfl
@[simp] theorem Part.setPort_dirty (i : Nat) (x : Port) : (p.setPort i x).dirty = p.dirty := rfl
@[simp] theorem Part.setPort_poison (i : Nat) (x : Port) : (p.setPort i x).poison = p.poison := rfl
@[simp] theorem Part.setPort_dead (i : Nat) (x : Port) : (p.setPort i x).dead = p.dead := rfl
@[simp] theorem Part.setPort_closing (i : Nat) (x : Port) : (p.setPort i x).closing = p.closing := rfl
@[simp] theorem Part.setPort_cleans (i : Nat) (x : Port) : (p.setPort i x).cleans = p.cleans := rfl
@[simp] theorem Part.setPort_nextId (i : Nat) (x : Port) : (p.setPort i x).nextId = p.nextId := rfl
@[simp] theorem Part.setPort_net (i : Nat) (x : Port) : (p.setPort i x).net = p.net := rfl
@[simp] theorem Part.setPort_hbm (i : Nat) (x : Port) : (p.setPort i x).hbm = p.hbm := rfl
@[simp] theorem Part.setPort_domain (i : Nat) (x : Port) : (p.setPort i x).domain = p.domain := rfl
@[simp] theorem Part.setPort_host (i : Nat) (x : Port) : (p.setPort i x).host = p.host := rfl
@[simp] theorem Part.setPort_sched (i : Nat) (x : Port) : (p.setPort i x).sched = p.sched := rfl
@[simp] theorem Part.setPort_power (i : Nat) (x : Port) : (p.setPort i x).power = p.power := rfl
@[simp] theorem Part.setPort_repair (i : Nat) (x : Port) : (p.setPort i x).repair = p.repair := rfl
@[simp] theorem Part.setPort_boot (i : Nat) (x : Port) : (p.setPort i x).boot = p.boot := rfl
@[simp] theorem Part.setPort_mgmt (i : Nat) (x : Port) : (p.setPort i x).mgmt = p.mgmt := rfl
@[simp] theorem Part.setPort_out (i : Nat) (x : Port) : (p.setPort i x).out = p.out := rfl

@[simp] theorem Part.setRegion_now (i : Nat) (x : Region) : (p.setRegion i x).now = p.now := rfl
@[simp] theorem Part.setRegion_freeCtr (i : Nat) (x : Region) : (p.setRegion i x).freeCtr = p.freeCtr := rfl
@[simp] theorem Part.setRegion_ctl (i : Nat) (x : Region) : (p.setRegion i x).ctl = p.ctl := rfl
@[simp] theorem Part.setRegion_tick (i : Nat) (x : Region) : (p.setRegion i x).tick = p.tick := rfl
@[simp] theorem Part.setRegion_step (i : Nat) (x : Region) : (p.setRegion i x).step = p.step := rfl
@[simp] theorem Part.setRegion_tiles (i : Nat) (x : Region) : (p.setRegion i x).tiles = p.tiles := rfl
@[simp] theorem Part.setRegion_routers (i : Nat) (x : Region) : (p.setRegion i x).routers = p.routers := rfl
@[simp] theorem Part.setRegion_flits (i : Nat) (x : Region) : (p.setRegion i x).flits = p.flits := rfl
@[simp] theorem Part.setRegion_slices (i : Nat) (x : Region) : (p.setRegion i x).slices = p.slices := rfl
@[simp] theorem Part.setRegion_mem (i : Nat) (x : Region) : (p.setRegion i x).mem = p.mem := rfl
@[simp] theorem Part.setRegion_dirty (i : Nat) (x : Region) : (p.setRegion i x).dirty = p.dirty := rfl
@[simp] theorem Part.setRegion_poison (i : Nat) (x : Region) : (p.setRegion i x).poison = p.poison := rfl
@[simp] theorem Part.setRegion_dead (i : Nat) (x : Region) : (p.setRegion i x).dead = p.dead := rfl
@[simp] theorem Part.setRegion_closing (i : Nat) (x : Region) : (p.setRegion i x).closing = p.closing := rfl
@[simp] theorem Part.setRegion_cleans (i : Nat) (x : Region) : (p.setRegion i x).cleans = p.cleans := rfl
@[simp] theorem Part.setRegion_nextId (i : Nat) (x : Region) : (p.setRegion i x).nextId = p.nextId := rfl
@[simp] theorem Part.setRegion_net (i : Nat) (x : Region) : (p.setRegion i x).net = p.net := rfl
@[simp] theorem Part.setRegion_hbm (i : Nat) (x : Region) : (p.setRegion i x).hbm = p.hbm := rfl
@[simp] theorem Part.setRegion_ports (i : Nat) (x : Region) : (p.setRegion i x).ports = p.ports := rfl
@[simp] theorem Part.setRegion_domain (i : Nat) (x : Region) : (p.setRegion i x).domain = p.domain := rfl
@[simp] theorem Part.setRegion_host (i : Nat) (x : Region) : (p.setRegion i x).host = p.host := rfl
@[simp] theorem Part.setRegion_sched (i : Nat) (x : Region) : (p.setRegion i x).sched = p.sched := rfl
@[simp] theorem Part.setRegion_repair (i : Nat) (x : Region) : (p.setRegion i x).repair = p.repair := rfl
@[simp] theorem Part.setRegion_boot (i : Nat) (x : Region) : (p.setRegion i x).boot = p.boot := rfl
@[simp] theorem Part.setRegion_mgmt (i : Nat) (x : Region) : (p.setRegion i x).mgmt = p.mgmt := rfl
@[simp] theorem Part.setRegion_out (i : Nat) (x : Region) : (p.setRegion i x).out = p.out := rfl

@[simp] theorem Part.setReq_now (q : Req) : (p.setReq q).now = p.now := rfl
@[simp] theorem Part.setReq_freeCtr (q : Req) : (p.setReq q).freeCtr = p.freeCtr := rfl
@[simp] theorem Part.setReq_ctl (q : Req) : (p.setReq q).ctl = p.ctl := rfl
@[simp] theorem Part.setReq_tick (q : Req) : (p.setReq q).tick = p.tick := rfl
@[simp] theorem Part.setReq_step (q : Req) : (p.setReq q).step = p.step := rfl
@[simp] theorem Part.setReq_tiles (q : Req) : (p.setReq q).tiles = p.tiles := rfl
@[simp] theorem Part.setReq_routers (q : Req) : (p.setReq q).routers = p.routers := rfl
@[simp] theorem Part.setReq_flits (q : Req) : (p.setReq q).flits = p.flits := rfl
@[simp] theorem Part.setReq_slices (q : Req) : (p.setReq q).slices = p.slices := rfl
@[simp] theorem Part.setReq_mem (q : Req) : (p.setReq q).mem = p.mem := rfl
@[simp] theorem Part.setReq_dirty (q : Req) : (p.setReq q).dirty = p.dirty := rfl
@[simp] theorem Part.setReq_poison (q : Req) : (p.setReq q).poison = p.poison := rfl
@[simp] theorem Part.setReq_dead (q : Req) : (p.setReq q).dead = p.dead := rfl
@[simp] theorem Part.setReq_closing (q : Req) : (p.setReq q).closing = p.closing := rfl
@[simp] theorem Part.setReq_cleans (q : Req) : (p.setReq q).cleans = p.cleans := rfl
@[simp] theorem Part.setReq_nextId (q : Req) : (p.setReq q).nextId = p.nextId := rfl
@[simp] theorem Part.setReq_hbm (q : Req) : (p.setReq q).hbm = p.hbm := rfl
@[simp] theorem Part.setReq_ports (q : Req) : (p.setReq q).ports = p.ports := rfl
@[simp] theorem Part.setReq_domain (q : Req) : (p.setReq q).domain = p.domain := rfl
@[simp] theorem Part.setReq_host (q : Req) : (p.setReq q).host = p.host := rfl
@[simp] theorem Part.setReq_sched (q : Req) : (p.setReq q).sched = p.sched := rfl
@[simp] theorem Part.setReq_power (q : Req) : (p.setReq q).power = p.power := rfl
@[simp] theorem Part.setReq_repair (q : Req) : (p.setReq q).repair = p.repair := rfl
@[simp] theorem Part.setReq_boot (q : Req) : (p.setReq q).boot = p.boot := rfl
@[simp] theorem Part.setReq_mgmt (q : Req) : (p.setReq q).mgmt = p.mgmt := rfl
@[simp] theorem Part.setReq_out (q : Req) : (p.setReq q).out = p.out := rfl

@[simp] theorem Part.dropReq_now (i : Nat) : (p.dropReq i).now = p.now := rfl
@[simp] theorem Part.dropReq_freeCtr (i : Nat) : (p.dropReq i).freeCtr = p.freeCtr := rfl
@[simp] theorem Part.dropReq_ctl (i : Nat) : (p.dropReq i).ctl = p.ctl := rfl
@[simp] theorem Part.dropReq_tick (i : Nat) : (p.dropReq i).tick = p.tick := rfl
@[simp] theorem Part.dropReq_step (i : Nat) : (p.dropReq i).step = p.step := rfl
@[simp] theorem Part.dropReq_tiles (i : Nat) : (p.dropReq i).tiles = p.tiles := rfl
@[simp] theorem Part.dropReq_routers (i : Nat) : (p.dropReq i).routers = p.routers := rfl
@[simp] theorem Part.dropReq_flits (i : Nat) : (p.dropReq i).flits = p.flits := rfl
@[simp] theorem Part.dropReq_slices (i : Nat) : (p.dropReq i).slices = p.slices := rfl
@[simp] theorem Part.dropReq_mem (i : Nat) : (p.dropReq i).mem = p.mem := rfl
@[simp] theorem Part.dropReq_dirty (i : Nat) : (p.dropReq i).dirty = p.dirty := rfl
@[simp] theorem Part.dropReq_poison (i : Nat) : (p.dropReq i).poison = p.poison := rfl
@[simp] theorem Part.dropReq_dead (i : Nat) : (p.dropReq i).dead = p.dead := rfl
@[simp] theorem Part.dropReq_closing (i : Nat) : (p.dropReq i).closing = p.closing := rfl
@[simp] theorem Part.dropReq_cleans (i : Nat) : (p.dropReq i).cleans = p.cleans := rfl
@[simp] theorem Part.dropReq_nextId (i : Nat) : (p.dropReq i).nextId = p.nextId := rfl
@[simp] theorem Part.dropReq_hbm (i : Nat) : (p.dropReq i).hbm = p.hbm := rfl
@[simp] theorem Part.dropReq_ports (i : Nat) : (p.dropReq i).ports = p.ports := rfl
@[simp] theorem Part.dropReq_domain (i : Nat) : (p.dropReq i).domain = p.domain := rfl
@[simp] theorem Part.dropReq_host (i : Nat) : (p.dropReq i).host = p.host := rfl
@[simp] theorem Part.dropReq_sched (i : Nat) : (p.dropReq i).sched = p.sched := rfl
@[simp] theorem Part.dropReq_power (i : Nat) : (p.dropReq i).power = p.power := rfl
@[simp] theorem Part.dropReq_repair (i : Nat) : (p.dropReq i).repair = p.repair := rfl
@[simp] theorem Part.dropReq_boot (i : Nat) : (p.dropReq i).boot = p.boot := rfl
@[simp] theorem Part.dropReq_mgmt (i : Nat) : (p.dropReq i).mgmt = p.mgmt := rfl
@[simp] theorem Part.dropReq_out (i : Nat) : (p.dropReq i).out = p.out := rfl

@[simp] theorem Part.emit_now (o : Out) : (p.emit o).now = p.now := rfl
@[simp] theorem Part.emit_freeCtr (o : Out) : (p.emit o).freeCtr = p.freeCtr := rfl
@[simp] theorem Part.emit_ctl (o : Out) : (p.emit o).ctl = p.ctl := rfl
@[simp] theorem Part.emit_tick (o : Out) : (p.emit o).tick = p.tick := rfl
@[simp] theorem Part.emit_step (o : Out) : (p.emit o).step = p.step := rfl
@[simp] theorem Part.emit_tiles (o : Out) : (p.emit o).tiles = p.tiles := rfl
@[simp] theorem Part.emit_routers (o : Out) : (p.emit o).routers = p.routers := rfl
@[simp] theorem Part.emit_flits (o : Out) : (p.emit o).flits = p.flits := rfl
@[simp] theorem Part.emit_slices (o : Out) : (p.emit o).slices = p.slices := rfl
@[simp] theorem Part.emit_mem (o : Out) : (p.emit o).mem = p.mem := rfl
@[simp] theorem Part.emit_dirty (o : Out) : (p.emit o).dirty = p.dirty := rfl
@[simp] theorem Part.emit_poison (o : Out) : (p.emit o).poison = p.poison := rfl
@[simp] theorem Part.emit_dead (o : Out) : (p.emit o).dead = p.dead := rfl
@[simp] theorem Part.emit_closing (o : Out) : (p.emit o).closing = p.closing := rfl
@[simp] theorem Part.emit_cleans (o : Out) : (p.emit o).cleans = p.cleans := rfl
@[simp] theorem Part.emit_nextId (o : Out) : (p.emit o).nextId = p.nextId := rfl
@[simp] theorem Part.emit_net (o : Out) : (p.emit o).net = p.net := rfl
@[simp] theorem Part.emit_hbm (o : Out) : (p.emit o).hbm = p.hbm := rfl
@[simp] theorem Part.emit_ports (o : Out) : (p.emit o).ports = p.ports := rfl
@[simp] theorem Part.emit_domain (o : Out) : (p.emit o).domain = p.domain := rfl
@[simp] theorem Part.emit_host (o : Out) : (p.emit o).host = p.host := rfl
@[simp] theorem Part.emit_sched (o : Out) : (p.emit o).sched = p.sched := rfl
@[simp] theorem Part.emit_power (o : Out) : (p.emit o).power = p.power := rfl
@[simp] theorem Part.emit_repair (o : Out) : (p.emit o).repair = p.repair := rfl
@[simp] theorem Part.emit_boot (o : Out) : (p.emit o).boot = p.boot := rfl
@[simp] theorem Part.emit_mgmt (o : Out) : (p.emit o).mgmt = p.mgmt := rfl

@[simp] theorem Part.setSq_now (fn q : Nat) (x : SubQ) : (p.setSq fn q x).now = p.now := rfl
@[simp] theorem Part.setSq_freeCtr (fn q : Nat) (x : SubQ) : (p.setSq fn q x).freeCtr = p.freeCtr := rfl
@[simp] theorem Part.setSq_ctl (fn q : Nat) (x : SubQ) : (p.setSq fn q x).ctl = p.ctl := rfl
@[simp] theorem Part.setSq_tick (fn q : Nat) (x : SubQ) : (p.setSq fn q x).tick = p.tick := rfl
@[simp] theorem Part.setSq_step (fn q : Nat) (x : SubQ) : (p.setSq fn q x).step = p.step := rfl
@[simp] theorem Part.setSq_tiles (fn q : Nat) (x : SubQ) : (p.setSq fn q x).tiles = p.tiles := rfl
@[simp] theorem Part.setSq_routers (fn q : Nat) (x : SubQ) : (p.setSq fn q x).routers = p.routers := rfl
@[simp] theorem Part.setSq_flits (fn q : Nat) (x : SubQ) : (p.setSq fn q x).flits = p.flits := rfl
@[simp] theorem Part.setSq_slices (fn q : Nat) (x : SubQ) : (p.setSq fn q x).slices = p.slices := rfl
@[simp] theorem Part.setSq_mem (fn q : Nat) (x : SubQ) : (p.setSq fn q x).mem = p.mem := rfl
@[simp] theorem Part.setSq_dirty (fn q : Nat) (x : SubQ) : (p.setSq fn q x).dirty = p.dirty := rfl
@[simp] theorem Part.setSq_poison (fn q : Nat) (x : SubQ) : (p.setSq fn q x).poison = p.poison := rfl
@[simp] theorem Part.setSq_dead (fn q : Nat) (x : SubQ) : (p.setSq fn q x).dead = p.dead := rfl
@[simp] theorem Part.setSq_closing (fn q : Nat) (x : SubQ) : (p.setSq fn q x).closing = p.closing := rfl
@[simp] theorem Part.setSq_cleans (fn q : Nat) (x : SubQ) : (p.setSq fn q x).cleans = p.cleans := rfl
@[simp] theorem Part.setSq_nextId (fn q : Nat) (x : SubQ) : (p.setSq fn q x).nextId = p.nextId := rfl
@[simp] theorem Part.setSq_net (fn q : Nat) (x : SubQ) : (p.setSq fn q x).net = p.net := rfl
@[simp] theorem Part.setSq_hbm (fn q : Nat) (x : SubQ) : (p.setSq fn q x).hbm = p.hbm := rfl
@[simp] theorem Part.setSq_ports (fn q : Nat) (x : SubQ) : (p.setSq fn q x).ports = p.ports := rfl
@[simp] theorem Part.setSq_domain (fn q : Nat) (x : SubQ) : (p.setSq fn q x).domain = p.domain := rfl
@[simp] theorem Part.setSq_sched (fn q : Nat) (x : SubQ) : (p.setSq fn q x).sched = p.sched := rfl
@[simp] theorem Part.setSq_power (fn q : Nat) (x : SubQ) : (p.setSq fn q x).power = p.power := rfl
@[simp] theorem Part.setSq_repair (fn q : Nat) (x : SubQ) : (p.setSq fn q x).repair = p.repair := rfl
@[simp] theorem Part.setSq_boot (fn q : Nat) (x : SubQ) : (p.setSq fn q x).boot = p.boot := rfl
@[simp] theorem Part.setSq_mgmt (fn q : Nat) (x : SubQ) : (p.setSq fn q x).mgmt = p.mgmt := rfl
@[simp] theorem Part.setSq_out (fn q : Nat) (x : SubQ) : (p.setSq fn q x).out = p.out := rfl

@[simp] theorem Part.setCq_now (fn q : Nat) (x : CompQ) : (p.setCq fn q x).now = p.now := rfl
@[simp] theorem Part.setCq_freeCtr (fn q : Nat) (x : CompQ) : (p.setCq fn q x).freeCtr = p.freeCtr := rfl
@[simp] theorem Part.setCq_ctl (fn q : Nat) (x : CompQ) : (p.setCq fn q x).ctl = p.ctl := rfl
@[simp] theorem Part.setCq_tick (fn q : Nat) (x : CompQ) : (p.setCq fn q x).tick = p.tick := rfl
@[simp] theorem Part.setCq_step (fn q : Nat) (x : CompQ) : (p.setCq fn q x).step = p.step := rfl
@[simp] theorem Part.setCq_tiles (fn q : Nat) (x : CompQ) : (p.setCq fn q x).tiles = p.tiles := rfl
@[simp] theorem Part.setCq_routers (fn q : Nat) (x : CompQ) : (p.setCq fn q x).routers = p.routers := rfl
@[simp] theorem Part.setCq_flits (fn q : Nat) (x : CompQ) : (p.setCq fn q x).flits = p.flits := rfl
@[simp] theorem Part.setCq_slices (fn q : Nat) (x : CompQ) : (p.setCq fn q x).slices = p.slices := rfl
@[simp] theorem Part.setCq_mem (fn q : Nat) (x : CompQ) : (p.setCq fn q x).mem = p.mem := rfl
@[simp] theorem Part.setCq_dirty (fn q : Nat) (x : CompQ) : (p.setCq fn q x).dirty = p.dirty := rfl
@[simp] theorem Part.setCq_poison (fn q : Nat) (x : CompQ) : (p.setCq fn q x).poison = p.poison := rfl
@[simp] theorem Part.setCq_dead (fn q : Nat) (x : CompQ) : (p.setCq fn q x).dead = p.dead := rfl
@[simp] theorem Part.setCq_closing (fn q : Nat) (x : CompQ) : (p.setCq fn q x).closing = p.closing := rfl
@[simp] theorem Part.setCq_cleans (fn q : Nat) (x : CompQ) : (p.setCq fn q x).cleans = p.cleans := rfl
@[simp] theorem Part.setCq_nextId (fn q : Nat) (x : CompQ) : (p.setCq fn q x).nextId = p.nextId := rfl
@[simp] theorem Part.setCq_net (fn q : Nat) (x : CompQ) : (p.setCq fn q x).net = p.net := rfl
@[simp] theorem Part.setCq_hbm (fn q : Nat) (x : CompQ) : (p.setCq fn q x).hbm = p.hbm := rfl
@[simp] theorem Part.setCq_ports (fn q : Nat) (x : CompQ) : (p.setCq fn q x).ports = p.ports := rfl
@[simp] theorem Part.setCq_domain (fn q : Nat) (x : CompQ) : (p.setCq fn q x).domain = p.domain := rfl
@[simp] theorem Part.setCq_sched (fn q : Nat) (x : CompQ) : (p.setCq fn q x).sched = p.sched := rfl
@[simp] theorem Part.setCq_power (fn q : Nat) (x : CompQ) : (p.setCq fn q x).power = p.power := rfl
@[simp] theorem Part.setCq_repair (fn q : Nat) (x : CompQ) : (p.setCq fn q x).repair = p.repair := rfl
@[simp] theorem Part.setCq_boot (fn q : Nat) (x : CompQ) : (p.setCq fn q x).boot = p.boot := rfl
@[simp] theorem Part.setCq_mgmt (fn q : Nat) (x : CompQ) : (p.setCq fn q x).mgmt = p.mgmt := rfl
@[simp] theorem Part.setCq_out (fn q : Nat) (x : CompQ) : (p.setCq fn q x).out = p.out := rfl

end Sys2Proof.Machine
end

