-- ==== Sys2Proof/Laws/Ops.lean ====
section
/-! SUPPORT. Laws/Ops.lean: what the named operations over registers, tiles, groups and slices do; commands of a part that is live. -/

namespace Sys2Proof.Machine

/-! ## Commands -/

theorem onPart_live {s : State} (h : s.live) (f : Part → Part) : s.onPart f = .next { s with part := f s.part } := by
  simp [State.onPart, h.1, h.2]

theorem onAny_live {s : State} (h : s.pins.inReset = false) (f : Part → Part) : s.onAny f = .next { s with part := f s.part } := by
  simp [State.onAny, h]

theorem onPart_reset {s : State} (h : s.pins.inReset = true) (f : Part → Part) : s.onPart f = .next s := by simp [State.onPart, h]

theorem onPart_fatal {s : State} (h : s.part.fatal = true) (f : Part → Part) : s.onPart f = .next s := by simp [State.onPart, h]

theorem onAny_reset {s : State} (h : s.pins.inReset = true) (f : Part → Part) : s.onAny f = .next s := by simp [State.onAny, h]

/-- Whatever a command does to the part, it answers a next state that differs in the part alone. -/
theorem onPart_next (s : State) (f : Part → Part) : ∃ p, s.onPart f = .next { s with part := p } := by
  unfold State.onPart
  split
  · exact ⟨s.part, rfl⟩
  · exact ⟨f s.part, rfl⟩

theorem onAny_next (s : State) (f : Part → Part) : ∃ p, s.onAny f = .next { s with part := p } := by
  unfold State.onAny
  split
  · exact ⟨s.part, rfl⟩
  · exact ⟨f s.part, rfl⟩

/-! ## Registers -/

variable (p : Part)

theorem Part.reg_setReg_self (r : Reg) (v : W64) (i j : Nat) : (p.setReg r v i j).reg r i j = v := by simp [Part.reg, Part.setReg]

theorem Part.reg_setReg_ne {r r' : Reg} {i j i' j' : Nat} (v : W64) (h : r'.key i' j' ≠ r.key i j) :
    (p.setReg r v i j).reg r' i' j' = p.reg r' i' j' := by
  simp only [Part.reg, Part.setReg]
  unfold mput
  split
  · rw [mget_mdel, if_neg h]
  · rw [mget_mins, if_neg h]

/-- A field read back. -/
theorem Part.rd_wr_self (f : Fld) (v i j : Nat) (h : f.lo + f.wid ≤ 64) : (p.wr f v i j).rd f i j = v % 2 ^ f.wid := by
  simp only [Part.rd, Part.wr, Part.reg_setReg_self]
  exact getB_setB_self _ _ _ _ h

/-- A field of another register, or of another element, keeps its value. -/
theorem Part.rd_wr_key {f f' : Fld} {i j i' j' : Nat} (v : Nat) (h : f'.reg.key i' j' ≠ f.reg.key i j) :
    (p.wr f v i j).rd f' i' j' = p.rd f' i' j' := by
  simp only [Part.rd, Part.wr, Part.reg_setReg_ne p _ h]

/-- Another field of the same register keeps its value. -/
theorem Part.rd_wr_fld {f f' : Fld} (i j v : Nat) (hr : f'.reg = f.reg) (h : f.lo + f.wid ≤ f'.lo ∨ f'.lo + f'.wid ≤ f.lo) :
    (p.wr f v i j).rd f' i j = p.rd f' i j := by
  simp only [Part.rd, Part.wr, hr, Part.reg_setReg_self]
  exact getB_setB_ne _ _ _ _ _ _ h

theorem Part.rd_lt (f : Fld) (i j : Nat) : p.rd f i j < 2 ^ f.wid := getB_lt _ _ _

theorem Part.rd_set1_self (f : Fld) (i j : Nat) (h : f.lo + f.wid ≤ 64) (hw : f.wid = 1) : (p.set1 f i j).rd f i j = 1 := by
  rw [Part.set1, Part.rd_wr_self p f 1 i j h]; simp [hw]

theorem Part.rd_set1_key {f f' : Fld} {i j i' j' : Nat} (h : f'.reg.key i' j' ≠ f.reg.key i j) : (p.set1 f i j).rd f' i' j' = p.rd f' i' j' :=
  p.rd_wr_key 1 h

theorem Part.rd_set1_fld {f f' : Fld} (i j : Nat) (hr : f'.reg = f.reg) (h : f.lo + f.wid ≤ f'.lo ∨ f'.lo + f'.wid ≤ f.lo) :
    (p.set1 f i j).rd f' i j = p.rd f' i j := p.rd_wr_fld i j 1 hr h

/-- A saturating counter. -/
theorem Part.rd_inc_self (f : Fld) (n i j : Nat) (h : f.lo + f.wid ≤ 64) : (p.inc f n i j).rd f i j = min (p.rd f i j + n) (2 ^ f.wid - 1) := by
  rw [Part.inc, Part.rd_wr_self p f _ i j h]
  have := Nat.two_pow_pos f.wid
  exact Nat.mod_eq_of_lt (by omega)

theorem Part.rd_inc_key {f f' : Fld} {i j i' j' : Nat} (n : Nat) (h : f'.reg.key i' j' ≠ f.reg.key i j) :
    (p.inc f n i j).rd f' i' j' = p.rd f' i' j' := p.rd_wr_key _ h

theorem Part.rd_inc_fld {f f' : Fld} (n i j : Nat) (hr : f'.reg = f.reg) (h : f.lo + f.wid ≤ f'.lo ∨ f'.lo + f'.wid ≤ f.lo) :
    (p.inc f n i j).rd f' i j = p.rd f' i j := p.rd_wr_fld i j _ hr h

/-! ## Registers under updates that do not touch them -/

@[simp] theorem Part.reg_at (t : Nat) (r : Reg) (i j : Nat) : (p.at t).reg r i j = p.reg r i j := rfl
@[simp] theorem Part.rd_at (t : Nat) (f' : Fld) (i j : Nat) : (p.at t).rd f' i j = p.rd f' i j := rfl
@[simp] theorem Part.reg_nextFree (r : Reg) (i j : Nat) : (p.nextFree).reg r i j = p.reg r i j := rfl
@[simp] theorem Part.rd_nextFree (f' : Fld) (i j : Nat) : (p.nextFree).rd f' i j = p.rd f' i j := rfl
@[simp] theorem Part.reg_setTile (t : Nat) (x : Tile) (r : Reg) (i j : Nat) : (p.setTile t x).reg r i j = p.reg r i j := rfl
@[simp] theorem Part.rd_setTile (t : Nat) (x : Tile) (f' : Fld) (i j : Nat) : (p.setTile t x).rd f' i j = p.rd f' i j := rfl
@[simp] theorem Part.reg_modTile (t : Nat) (f : Tile → Tile) (r : Reg) (i j : Nat) : (p.modTile t f).reg r i j = p.reg r i j := rfl
@[simp] theorem Part.rd_modTile (t : Nat) (f : Tile → Tile) (f' : Fld) (i j : Nat) : (p.modTile t f).rd f' i j = p.rd f' i j := rfl
@[simp] theorem Part.reg_setGroup (t g : Nat) (y : Group) (r : Reg) (i j : Nat) : (p.setGroup t g y).reg r i j = p.reg r i j := rfl
@[simp] theorem Part.rd_setGroup (t g : Nat) (y : Group) (f' : Fld) (i j : Nat) : (p.setGroup t g y).rd f' i j = p.rd f' i j := rfl
@[simp] theorem Part.reg_modGroup (t g : Nat) (f : Group → Group) (r : Reg) (i j : Nat) : (p.modGroup t g f).reg r i j = p.reg r i j := rfl
@[simp] theorem Part.rd_modGroup (t g : Nat) (f : Group → Group) (f' : Fld) (i j : Nat) : (p.modGroup t g f).rd f' i j = p.rd f' i j := rfl
@[simp] theorem Part.reg_setSlice (a : Nat) (x : Slice) (r : Reg) (i j : Nat) : (p.setSlice a x).reg r i j = p.reg r i j := rfl
@[simp] theorem Part.rd_setSlice (a : Nat) (x : Slice) (f' : Fld) (i j : Nat) : (p.setSlice a x).rd f' i j = p.rd f' i j := rfl
@[simp] theorem Part.reg_modSlice (a : Nat) (f : Slice → Slice) (r : Reg) (i j : Nat) : (p.modSlice a f).reg r i j = p.reg r i j := rfl
@[simp] theorem Part.rd_modSlice (a : Nat) (f : Slice → Slice) (f' : Fld) (i j : Nat) : (p.modSlice a f).rd f' i j = p.rd f' i j := rfl
@[simp] theorem Part.reg_setRouter (a : Nat) (x : Router) (r : Reg) (i j : Nat) : (p.setRouter a x).reg r i j = p.reg r i j := rfl
@[simp] theorem Part.rd_setRouter (a : Nat) (x : Router) (f' : Fld) (i j : Nat) : (p.setRouter a x).rd f' i j = p.rd f' i j := rfl
@[simp] theorem Part.reg_setPort (a : Nat) (x : Port) (r : Reg) (i j : Nat) : (p.setPort a x).reg r i j = p.reg r i j := rfl
@[simp] theorem Part.rd_setPort (a : Nat) (x : Port) (f' : Fld) (i j : Nat) : (p.setPort a x).rd f' i j = p.rd f' i j := rfl
@[simp] theorem Part.reg_setRegion (a : Nat) (x : Region) (r : Reg) (i j : Nat) : (p.setRegion a x).reg r i j = p.reg r i j := rfl
@[simp] theorem Part.rd_setRegion (a : Nat) (x : Region) (f' : Fld) (i j : Nat) : (p.setRegion a x).rd f' i j = p.rd f' i j := rfl
@[simp] theorem Part.reg_setReq (q : Req) (r : Reg) (i j : Nat) : (p.setReq q).reg r i j = p.reg r i j := rfl
@[simp] theorem Part.rd_setReq (q : Req) (f' : Fld) (i j : Nat) : (p.setReq q).rd f' i j = p.rd f' i j := rfl
@[simp] theorem Part.reg_dropReq (a : Nat) (r : Reg) (i j : Nat) : (p.dropReq a).reg r i j = p.reg r i j := rfl
@[simp] theorem Part.rd_dropReq (a : Nat) (f' : Fld) (i j : Nat) : (p.dropReq a).rd f' i j = p.rd f' i j := rfl
@[simp] theorem Part.reg_emit (o : Out) (r : Reg) (i j : Nat) : (p.emit o).reg r i j = p.reg r i j := rfl
@[simp] theorem Part.rd_emit (o : Out) (f' : Fld) (i j : Nat) : (p.emit o).rd f' i j = p.rd f' i j := rfl
@[simp] theorem Part.reg_setSq (a b : Nat) (x : SubQ) (r : Reg) (i j : Nat) : (p.setSq a b x).reg r i j = p.reg r i j := rfl
@[simp] theorem Part.rd_setSq (a b : Nat) (x : SubQ) (f' : Fld) (i j : Nat) : (p.setSq a b x).rd f' i j = p.rd f' i j := rfl
@[simp] theorem Part.reg_setCq (a b : Nat) (x : CompQ) (r : Reg) (i j : Nat) : (p.setCq a b x).reg r i j = p.reg r i j := rfl
@[simp] theorem Part.rd_setCq (a b : Nat) (x : CompQ) (f' : Fld) (i j : Nat) : (p.setCq a b x).rd f' i j = p.rd f' i j := rfl

/-! ## Units -/

theorem Part.tile_setTile (t t' : Nat) (x : Tile) : (p.setTile t x).tile t' = if t' = t then x else p.tile t' := by
  simp [Part.tile, Part.setTile, mget_mput]

@[simp] theorem Part.tile_setTile_self (t : Nat) (x : Tile) : (p.setTile t x).tile t = x := by simp [Part.tile_setTile]

@[simp] theorem Part.tile_modTile_self (t : Nat) (f : Tile → Tile) : (p.modTile t f).tile t = f (p.tile t) := by simp [Part.modTile]

theorem Tile.group_setGroup (x : Tile) (g g' : Nat) (y : Group) : (x.setGroup g y).group g' = if g' = g then y else x.group g' := by
  simp [Tile.group, Tile.setGroup, mget_mput]

@[simp] theorem Part.group_setGroup_self (t g : Nat) (y : Group) : (p.setGroup t g y).group t g = y := by
  simp [Part.group, Part.setGroup, Tile.group_setGroup]

@[simp] theorem Part.group_modGroup_self (t g : Nat) (f : Group → Group) : (p.modGroup t g f).group t g = f (p.group t g) := by
  simp [Part.modGroup]

/-- Groups of other tiles, and other groups of the tile. -/
theorem Part.group_setGroup_ne {t g t' g' : Nat} (y : Group) (h : t' ≠ t ∨ g' ≠ g) : (p.setGroup t g y).group t' g' = p.group t' g' := by
  simp only [Part.group, Part.setGroup, Part.tile_setTile]
  by_cases ht : t' = t
  · subst ht
    have : g' ≠ g := by simpa using h
    simp [Tile.group_setGroup, this]
  · simp [ht]

@[simp] theorem Part.slice_setSlice_self (i : Nat) (x : Slice) : (p.setSlice i x).slice i = x := by simp [Part.slice, Part.setSlice]

theorem Part.slice_setSlice (i i' : Nat) (x : Slice) : (p.setSlice i x).slice i' = if i' = i then x else p.slice i' := by
  simp [Part.slice, Part.setSlice, mget_mput]

@[simp] theorem Part.slice_modSlice_self (i : Nat) (f : Slice → Slice) : (p.modSlice i f).slice i = f (p.slice i) := by simp [Part.modSlice]

@[simp] theorem Part.port_setPort_self (i : Nat) (x : Port) : (p.setPort i x).port i = x := by simp [Part.port, Part.setPort]

@[simp] theorem Part.router_setRouter_self (i : Nat) (x : Router) : (p.setRouter i x).router i = x := by simp [Part.router, Part.setRouter]

@[simp] theorem Part.region_setRegion_self (i : Nat) (x : Region) : (p.setRegion i x).region i = x := by simp [Part.region, Part.setRegion]

@[simp] theorem Part.sq_setSq_self (fn q : Nat) (x : SubQ) : (p.setSq fn q x).sq fn q = x := by simp [Part.sq, Part.setSq]

@[simp] theorem Part.cq_setCq_self (fn q : Nat) (x : CompQ) : (p.setCq fn q x).cq fn q = x := by simp [Part.cq, Part.setCq]

/-- Registers of a tile are not touched by register writes of control space. -/
@[simp] theorem Part.tile_wr (f : Fld) (v i j t : Nat) : (p.wr f v i j).tile t = p.tile t := rfl
@[simp] theorem Part.tile_inc (f : Fld) (n i j t : Nat) : (p.inc f n i j).tile t = p.tile t := rfl
@[simp] theorem Part.tile_set1 (f : Fld) (i j t : Nat) : (p.set1 f i j).tile t = p.tile t := rfl
@[simp] theorem Part.group_wr (f : Fld) (v i j t g : Nat) : (p.wr f v i j).group t g = p.group t g := rfl
@[simp] theorem Part.group_inc (f : Fld) (n i j t g : Nat) : (p.inc f n i j).group t g = p.group t g := rfl
@[simp] theorem Part.group_set1 (f : Fld) (i j t g : Nat) : (p.set1 f i j).group t g = p.group t g := rfl
@[simp] theorem Part.slice_wr (f : Fld) (v i j t : Nat) : (p.wr f v i j).slice t = p.slice t := rfl
@[simp] theorem Part.slice_inc (f : Fld) (n i j t : Nat) : (p.inc f n i j).slice t = p.slice t := rfl
@[simp] theorem Part.slice_set1 (f : Fld) (i j t : Nat) : (p.set1 f i j).slice t = p.slice t := rfl

end Sys2Proof.Machine
end

