-- ==== Sys2Proof/Laws/Log.lean ====
section
/-! SUPPORT. Laws/Log.lean: all that posting an event, writing the error log, releasing a transaction and taking a precise fault can do. -/

namespace Sys2Proof.Machine

/-! ## Events and the error log -/

/-- An MSI-X message is something sent. -/
theorem Part.msix_eq (p : Part) (fn v : Nat) : ∃ o, p.msix fn v = { p with out := o } := by
  unfold Part.msix
  split
  · exact ⟨_, rfl⟩
  · exact ⟨p.out, rfl⟩

theorem Part.writeCq_eq (p : Part) (fn q : Nat) (r : Reply) : ∃ h o, p.writeCq fn q r = { p with host := h, out := o } := ⟨_, _, rfl⟩

theorem Part.putEvent_eq (p : Part) (fn q c d : Nat) : ∃ h o, p.putEvent fn q c d = { p with host := h, out := o } := by
  unfold Part.putEvent
  obtain ⟨h, o, e⟩ := p.writeCq_eq fn q { fn, sq := 0, tag := 0, gen := 0, status := BitVec.ofNat 16 c, event := true, detail := BitVec.ofNat 64 d, time := p.ns }
  rw [e]
  obtain ⟨o', e'⟩ := Part.msix_eq { p with host := h, out := o } fn (p.cq fn q).vector
  rw [e']
  exact ⟨h, o', rfl⟩

/-- An event changes host queues and what the part has sent, nothing else. -/
theorem Part.event_eq (p : Part) (fn code detail : Nat) : ∃ h o, p.event fn code detail = { p with host := h, out := o } := by
  unfold Part.event
  split
  · exact ⟨_, p.out, rfl⟩
  · simp only
    split
    · exact ⟨_, p.out, rfl⟩
    · split
      · exact ⟨_, p.out, rfl⟩
      · have hq := Part.putEvent_eq
        split
        · exact hq _ _ _ _ _
        · split
          · obtain ⟨h, o, e⟩ := hq ({ p with host := { p.host with evDropped := mput 0 p.host.evDropped fn 0 } }) fn ‹_› 0x200 (mget 0 p.host.evDropped fn)
            rw [e]
            obtain ⟨h', o', e'⟩ := hq _ fn ‹_› code detail
            rw [e']
            exact ⟨h', o', rfl⟩
          · obtain ⟨h, o, e⟩ := hq ({ p with host := { p.host with evDropped := mput 0 p.host.evDropped fn 0 } }) fn ‹_› 0x200 (mget 0 p.host.evDropped fn)
            rw [e]
            exact ⟨_, o, rfl⟩

/-- Setting a register below the first block of control space past GLOBAL leaves every other block. -/
theorem mget_setReg_high (p : Part) (r : Reg) (v : W64) (i j k : Nat) (d : W64) (h : r.key i j ≠ k) : mget d (p.setReg r v i j).ctl k = mget d p.ctl k := by
  unfold Part.setReg mput
  simp only
  split
  · rw [mget_mdel, if_neg (fun e => h e.symm)]
  · rw [mget_mins, if_neg (fun e => h e.symm)]

/-- `q` differs from `p` in registers of the GLOBAL block, host queues, what the part has sent and the records due alone. -/
def Part.LogOnly (p q : Part) : Prop :=
  ∃ c h out rep, q = { p with ctl := c, host := h, out := out, repair := rep } ∧ ∀ (d : W64) k, 0x10000 ≤ k → mget d c k = mget d p.ctl k

theorem Part.LogOnly.refl (p : Part) : p.LogOnly p := ⟨_, _, _, _, rfl, fun _ _ _ => rfl⟩

theorem Part.LogOnly.setReg {p q : Part} (a : p.LogOnly q) (r : Reg) (v : W64) (j : Nat) (h : r.key 0 j < 0x10000) : p.LogOnly (q.setReg r v 0 j) := by
  obtain ⟨c, hh, out, rep, rfl, hc⟩ := a
  refine ⟨_, hh, out, rep, rfl, fun d k hk => ?_⟩
  have := mget_setReg_high { p with ctl := c, host := hh, out := out, repair := rep } r v 0 j k d (by omega)
  rw [← hc d k hk]
  exact this

theorem Part.LogOnly.wr {p q : Part} (a : p.LogOnly q) (f : Fld) (v : Nat) (h : f.reg.key 0 0 < 0x10000) : p.LogOnly (q.wr f v) := a.setReg _ _ _ h

theorem Part.LogOnly.event {p q : Part} (a : p.LogOnly q) (fn code detail : Nat) : p.LogOnly (q.event fn code detail) := by
  obtain ⟨h, o, e⟩ := q.event_eq fn code detail
  rw [e]
  obtain ⟨c, hh, out, rep, rfl, hc⟩ := a
  exact ⟨c, h, o, rep, rfl, hc⟩

theorem Part.LogOnly.repair {p q : Part} (a : p.LogOnly q) (x : Repair) : p.LogOnly { q with repair := x } := by
  obtain ⟨c, hh, out, rep, rfl, hc⟩ := a
  exact ⟨c, hh, out, x, rfl, hc⟩

/-- An entry of the error log. -/
theorem Part.log_only (p : Part) (cls level kind unit code action detail : Nat) (o : Owner) : p.LogOnly (p.log cls level kind unit code action detail o) := by
  have hn : p.rd GLOBAL_ELOG_STATUS_NEXT < 128 := p.rd_lt GLOBAL_ELOG_STATUS_NEXT 0 0
  unfold Part.log
  generalize p.rd GLOBAL_ELOG_STATUS_NEXT = n at hn
  dsimp only
  refine Part.LogOnly.event ?_ _ _ _
  have h4 : ∀ (w0 w1 w2 w3 : W64), p.LogOnly ((((p.setReg reg_GLOBAL_ELOG0 w0 0 n).setReg reg_GLOBAL_ELOG1 w1 0 n).setReg reg_GLOBAL_ELOG2 w2 0 n).setReg
      reg_GLOBAL_ELOG3 w3 0 n) := by
    intro w0 w1 w2 w3
    refine (((Part.LogOnly.refl p).setReg _ _ _ ?_).setReg _ _ _ ?_).setReg _ _ _ ?_ |>.setReg _ _ _ ?_
    all_goals simp only [Reg.key, reg_GLOBAL_ELOG0, reg_GLOBAL_ELOG1, reg_GLOBAL_ELOG2, reg_GLOBAL_ELOG3]; omega
  have h6 : ∀ (q : Part), p.LogOnly q → p.LogOnly ((q.wr GLOBAL_ELOG_STATUS_NEXT (n + 1)).inc GLOBAL_ELOG_STATUS_ENTRIES) := by
    intro q hq
    exact (hq.wr _ _ (by decide)).wr _ _ (by decide)
  have h7 : ∀ (q : Part), p.LogOnly q → p.LogOnly (if n = 127 then q.set1 GLOBAL_ELOG_STATUS_WRAPPED else q) := by
    intro q hq
    split
    · exact hq.wr _ _ (by decide)
    · exact hq
  split
  · exact (h7 _ (h6 _ (h4 _ _ _ _))).repair _
  · exact h7 _ (h6 _ (h4 _ _ _ _))

/-- Registers outside the GLOBAL block after a log entry. -/
theorem Part.reg_log (p : Part) (cls level kind unit code action detail : Nat) (o : Owner) (r : Reg) (i j : Nat) (h : 0x10000 ≤ r.key i j) :
    (p.log cls level kind unit code action detail o).reg r i j = p.reg r i j := by
  obtain ⟨c, hh, out, rep, e, hc⟩ := p.log_only cls level kind unit code action detail o
  rw [e]
  exact hc _ _ h

theorem Part.rd_log (p : Part) (cls level kind unit code action detail : Nat) (o : Owner) (f : Fld) (i j : Nat) (h : 0x10000 ≤ f.reg.key i j) :
    (p.log cls level kind unit code action detail o).rd f i j = p.rd f i j := by
  unfold Part.rd
  rw [Part.reg_log _ _ _ _ _ _ _ _ _ _ _ _ h]

theorem Part.tile_log (p : Part) (cls level kind unit code action detail : Nat) (o : Owner) (t : Nat) :
    (p.log cls level kind unit code action detail o).tile t = p.tile t := by
  obtain ⟨c, hh, out, rep, e, -⟩ := p.log_only cls level kind unit code action detail o
  rw [e]
  rfl

end Sys2Proof.Machine
end

