-- ==== Sys2Proof/Laws/Simt.lean ====
section
/-! SUPPORT. Laws/Simt.lean: registers of a thread group under the operations of an instruction; what issuing an instruction can do. -/

namespace Sys2Proof.Machine

/-! ## Registers -/

theorem mem_lanesOf {m : LaneMask} {l : Nat} : l ∈ lanesOf m ↔ l < 32 ∧ m.getLsbD l = true := by simp [lanesOf]

theorem Group.rg_putLane (y : Group) (r l : Nat) (v : W32) (r' l' : Nat) (hl : l < 32) (hl' : l' < 32) :
    (y.putLane r l v).rg r' l' = if r' = r ∧ l' = l then v else y.rg r' l' := by
  simp only [Group.rg, Group.putLane, mget_mput]
  by_cases h : r' = r ∧ l' = l
  · simp [h.1, h.2]
  · rw [if_neg h, if_neg]
    omega

theorem Group.rg_foldl_putLane (ls : List Nat) (hls : ∀ l ∈ ls, l < 32) (y : Group) (r : Nat) (f : Nat → W32) (r' l' : Nat) (hl' : l' < 32) :
    (ls.foldl (fun y l => y.putLane r l (f l)) y).rg r' l' = if r' = r ∧ l' ∈ ls then f l' else y.rg r' l' := by
  induction ls generalizing y with
  | nil => simp
  | cons l ls ih =>
    rw [List.foldl_cons, ih (fun k hk => hls k (List.mem_cons_of_mem _ hk)), y.rg_putLane r l (f l) r' l' (hls l List.mem_cons_self) hl']
    by_cases h1 : r' = r ∧ l' ∈ ls
    · simp [h1.1, h1.2]
    · rw [if_neg h1]
      by_cases h2 : r' = r ∧ l' = l
      · simp [h2.1, h2.2]
      · rw [if_neg h2, if_neg]
        simp only [List.mem_cons]
        rintro ⟨hr, rfl | hm⟩
        · exact h2 ⟨hr, rfl⟩
        · exact h1 ⟨hr, hm⟩

/-- A register of every lane of a mask is written; nothing else changes. -/
theorem Group.rg_putLanes (y : Group) (r : Nat) (m : LaneMask) (f : Nat → W32) (r' l : Nat) (hl : l < 32) :
    (y.putLanes r m f).rg r' l = if r' = r ∧ m.getLsbD l = true then f l else y.rg r' l := by
  unfold Group.putLanes
  rw [Group.rg_foldl_putLane _ (fun l h => (mem_lanesOf.1 h).1) y r f r' l hl]
  simp only [mem_lanesOf, hl, true_and]

/-- What register writes leave. -/
theorem Group.putLanes_frame (y : Group) (r : Nat) (m : LaneMask) (f : Nat → W32) :
    (y.putLanes r m f).paths = y.paths ∧ (y.putLanes r m f).cur = y.cur ∧ (y.putLanes r m f).splits = y.splits ∧
    (y.putLanes r m f).live = y.live ∧ (y.putLanes r m f).wait = y.wait ∧ (y.putLanes r m f).tx = y.tx ∧ (y.putLanes r m f).sid = y.sid ∧
    (y.putLanes r m f).tokens = y.tokens ∧ (y.putLanes r m f).nReg = y.nReg ∧ (y.putLanes r m f).block = y.block := by
  unfold Group.putLanes
  generalize lanesOf m = ls
  induction ls generalizing y with
  | nil => simp
  | cons l ls ih =>
    have h := ih (y.putLane r l (f l))
    simpa [Group.putLane] using h

/-- What moving paths about leaves of a group. -/
structure Group.SameData (y z : Group) : Prop where
  regs  : z.regs = y.regs
  marks : z.marks = y.marks
  pend  : z.pend = y.pend
  live  : z.live = y.live
  wait  : z.wait = y.wait
  tx    : z.tx = y.tx
  sid   : z.sid = y.sid
  block : z.block = y.block
  nReg  : z.nReg = y.nReg
  tokens : z.tokens = y.tokens

theorem Group.SameData.refl (y : Group) : y.SameData y := ⟨rfl, rfl, rfl, rfl, rfl, rfl, rfl, rfl, rfl, rfl⟩

theorem Group.SameData.trans {x y z : Group} (a : x.SameData y) (b : y.SameData z) : x.SameData z :=
  ⟨b.regs.trans a.regs, b.marks.trans a.marks, b.pend.trans a.pend, b.live.trans a.live, b.wait.trans a.wait, b.tx.trans a.tx, b.sid.trans a.sid,
   b.block.trans a.block, b.nReg.trans a.nReg, b.tokens.trans a.tokens⟩

theorem Group.schedule_same (y : Group) (i : Nat) : y.SameData (y.schedule i) := ⟨rfl, rfl, rfl, rfl, rfl, rfl, rfl, rfl, rfl, rfl⟩

theorem Group.arrive_same (y : Group) (i : Nat) : y.SameData (y.arrive i) := by
  unfold Group.arrive
  split
  · exact .refl y
  · split
    · exact .refl y
    · simp only
      split
      · exact ⟨rfl, rfl, rfl, rfl, rfl, rfl, rfl, rfl, rfl, rfl⟩
      · split
        · exact ⟨rfl, rfl, rfl, rfl, rfl, rfl, rfl, rfl, rfl, rfl⟩
        · split <;> exact ⟨rfl, rfl, rfl, rfl, rfl, rfl, rfl, rfl, rfl, rfl⟩

theorem Group.settle_same (n : Nat) (y : Group) : y.SameData (y.settle n) := by
  induction n generalizing y with
  | zero => exact .refl y
  | succ n ih =>
    unfold Group.settle
    split
    · exact .refl y
    · exact (y.arrive_same _).trans (ih _)

/-- An issued instruction moves paths alone. -/
theorem Group.issued_same (y : Group) (pc : Pc) (back : Bool) : y.SameData (y.issued pc back).1 := by
  unfold Group.issued
  simp only
  split
  · refine .trans ?_ (.trans (Group.schedule_same _ _) (Group.settle_same 64 _))
    exact ⟨rfl, rfl, rfl, rfl, rfl, rfl, rfl, rfl, rfl, rfl⟩
  · refine .trans ?_ (Group.settle_same 64 _)
    exact ⟨rfl, rfl, rfl, rfl, rfl, rfl, rfl, rfl, rfl, rfl⟩

/-- The group after an instruction has left its path at `pc`. -/
theorem Part.advance_group (p : Part) (t g : Nat) (pc : Pc) (back : Bool) :
    (p.advance t g pc back).group t g = ((p.group t g).issued pc back).1 := by
  unfold Part.advance
  simp only
  split <;> simp

theorem Part.advance_rg (p : Part) (t g : Nat) (pc : Pc) (back : Bool) (r l : Nat) :
    ((p.advance t g pc back).group t g).rg r l = (p.group t g).rg r l := by
  rw [Part.advance_group, Group.rg, ((p.group t g).issued_same pc back).regs]
  rfl

/-- What advancing leaves of the part: all but the issuing tile's groups and its rotation counter. -/
theorem Part.advance_frame (p : Part) (t g : Nat) (pc : Pc) (back : Bool) :
    (p.advance t g pc back).mem = p.mem ∧ (p.advance t g pc back).dirty = p.dirty ∧ (p.advance t g pc back).slices = p.slices ∧
    (p.advance t g pc back).net = p.net ∧ (p.advance t g pc back).freeCtr = p.freeCtr ∧ (p.advance t g pc back).poison = p.poison ∧
    (p.advance t g pc back).dead = p.dead ∧ (p.advance t g pc back).out = p.out ∧ (p.advance t g pc back).step = p.step ∧
    (p.advance t g pc back).sched = p.sched ∧ (p.advance t g pc back).host = p.host := by
  unfold Part.advance
  simp only
  split <;> simp

/-! ## Issue (R140, R161, R165) -/

/-- What a ready instruction does. -/
theorem Part.issue_ready {p : Part} {t g : Nat} {named srcs : List Nat} (h : p.Ready t g named srcs) {ok : Bool} (hok : ok = true) (act : Part → Part) :
    p.issue t g named srcs ok act = act (p.inc TL_ISSUE_ISSUED 1 t) := by
  unfold Part.issue
  simp [h.can, h.src, hok, h.fetch, h.regs]

theorem Part.Ready.notFatal {p : Part} {t g : Nat} {named srcs : List Nat} (h : p.Ready t g named srcs) : p.fatal = false := by
  have := h.can
  unfold Part.canIssue at this
  simp at this
  simpa using this.1.1.1.1.1.1.1.1.1

/-! ## Frames -/

theorem Part.OnlyGroup.refl (p : Part) (t g : Nat) : p.OnlyGroup p t g := ⟨fun _ _ => rfl, fun _ _ => rfl, rfl, fun _ _ _ _ _ => rfl, fun _ => rfl, rfl⟩

theorem Part.OnlyGroup.trans {p q r : Part} {t g : Nat} (a : p.OnlyGroup q t g) (b : q.OnlyGroup r t g) : p.OnlyGroup r t g :=
  ⟨fun t' h => (b.tiles t' h).trans (a.tiles t' h), fun g' h => (b.groups g' h).trans (a.groups g' h), b.tile.trans a.tile,
   fun x i j h1 h2 => (b.ctl x i j h1 h2).trans (a.ctl x i j h1 h2), fun x => (b.mem x).trans (a.mem x), b.rest.trans a.rest⟩

/-- Writing the group itself. -/
theorem Part.onlyGroup_setGroup (p : Part) (t g : Nat) (y : Group) : p.OnlyGroup (p.setGroup t g y) t g where
  tiles t' h := by simp [Part.setGroup, Part.tile_setTile, h]
  groups g' h := p.group_setGroup_ne y (.inr h)
  tile := by simp [Part.setGroup, Tile.setGroup]
  ctl _ _ _ _ _ := rfl
  mem _ := rfl
  rest := rfl

/-- Writing the instruction counter or the rotation counter. -/
theorem Part.onlyGroup_wr (p : Part) (t g : Nat) (f : Fld) (v i j : Nat) (h : f.reg.key i j = reg_TL_ISSUE.key t 0 ∨ f.reg.key i j = reg_TL_COUNTS.key t 0) :
    p.OnlyGroup (p.wr f v i j) t g where
  tiles _ _ := rfl
  groups _ _ := rfl
  tile := rfl
  ctl r i' j' h1 h2 := by
    refine p.reg_setReg_ne _ ?_
    cases h with
    | inl h => rw [h]; exact h1
    | inr h => rw [h]; exact h2
  mem _ := rfl
  rest := rfl

theorem Part.onlyGroup_inc (p : Part) (t g : Nat) (f : Fld) (n i j : Nat) (h : f.reg.key i j = reg_TL_ISSUE.key t 0 ∨ f.reg.key i j = reg_TL_COUNTS.key t 0) :
    p.OnlyGroup (p.inc f n i j) t g := p.onlyGroup_wr t g f _ i j h

theorem Part.onlyGroup_free (p : Part) (t g n : Nat) : p.OnlyGroup { p with freeCtr := n } t g :=
  ⟨fun _ _ => rfl, fun _ _ => rfl, rfl, fun _ _ _ _ _ => rfl, fun _ => rfl, rfl⟩

theorem Part.onlyGroup_advance (p : Part) (t g : Nat) (pc : Pc) (back : Bool) : p.OnlyGroup (p.advance t g pc back) t g := by
  unfold Part.advance
  simp only
  split
  · exact (p.onlyGroup_setGroup t g _).trans (Part.onlyGroup_inc _ t g _ 1 t 0 (.inr rfl))
  · exact p.onlyGroup_setGroup t g _

theorem Group.KeepsBut.of_same {y z : Group} (h : y.SameData z) (vd : Nat) : y.KeepsBut z vd where
  regs _ _ _ _ := by simp only [Group.rg, h.regs]
  marks _ _ _ _ := by simp only [Group.mark, h.marks]
  live := h.live
  wait := h.wait
  tx := h.tx
  sid := h.sid
  tokens := h.tokens
  block := h.block
  nReg := h.nReg

theorem Group.KeepsBut.trans {x y z : Group} {vd : Nat} (a : x.KeepsBut y vd) (b : y.KeepsBut z vd) : x.KeepsBut z vd :=
  ⟨fun r l h hl => (b.regs r l h hl).trans (a.regs r l h hl), fun r l h hl => (b.marks r l h hl).trans (a.marks r l h hl), b.live.trans a.live,
   b.wait.trans a.wait, b.tx.trans a.tx, b.sid.trans a.sid, b.tokens.trans a.tokens, b.block.trans a.block, b.nReg.trans a.nReg⟩

theorem find_mdel {α : Type} (m : List (Nat × α)) {k i : Nat} (h : i ≠ k) : (mdel m k).find? (fun c => c.1 = i) = m.find? (fun c => c.1 = i) := by
  induction m with
  | nil => rfl
  | cons c m ih =>
    obtain ⟨j, v⟩ := c
    simp only [mdel]
    split
    · next hj => subst hj; rw [ih, List.find?_cons_of_neg]; simpa using fun e => h e.symm
    · simp only [List.find?_cons, ih]

theorem Group.mark_putLane (y : Group) (r l : Nat) (v : W32) (r' l' : Nat) (hl : l < 32) (hl' : l' < 32) (h : r' ≠ r) :
    (y.putLane r l v).mark r' l' = y.mark r' l' := by
  simp only [Group.mark, Group.putLane]
  rw [find_mdel]
  omega

theorem Group.keepsBut_putLanes (y : Group) (r : Nat) (m : LaneMask) (f : Nat → W32) : y.KeepsBut (y.putLanes r m f) r := by
  have hk := y.putLanes_frame r m f
  refine ⟨fun r' l h hl => ?_, fun r' l h hl => ?_, hk.2.2.2.1, hk.2.2.2.2.1, hk.2.2.2.2.2.1, hk.2.2.2.2.2.2.1, hk.2.2.2.2.2.2.2.1,
    hk.2.2.2.2.2.2.2.2.2, hk.2.2.2.2.2.2.2.2.1⟩
  · rw [Group.rg_putLanes _ _ _ _ _ _ hl, if_neg]; exact fun e => h e.1
  · unfold Group.putLanes
    have : ∀ ls : List Nat, (∀ k ∈ ls, k < 32) → ∀ z : Group, (ls.foldl (fun y l => y.putLane r l (f l)) z).mark r' l = z.mark r' l := by
      intro ls
      induction ls with
      | nil => intro _ z; rfl
      | cons k ls ih =>
        intro hk z
        rw [List.foldl_cons, ih (fun k h => hk k (List.mem_cons_of_mem _ h)), z.mark_putLane r k _ r' l (hk k List.mem_cons_self) hl h]
    exact this _ (fun k h => (mem_lanesOf.1 h).1) y

/-- The effect of an instruction that writes one register: registers put, then the path advanced to `pc`. -/
theorem Part.wrote_advance (p : Part) (t g vd : Nat) (f : Nat → W32) (pc : Pc) (back : Bool) :
    p.Wrote ((p.modGroup t g fun y => y.putLanes vd y.act f).advance t g pc back) t g vd f where
  active l hl ha := by
    rw [Part.advance_rg, Part.group_modGroup_self, Group.rg_putLanes _ _ _ _ _ _ hl, if_pos ⟨rfl, ha⟩]
  inactive l hl ha := by
    rw [Part.advance_rg, Part.group_modGroup_self, Group.rg_putLanes _ _ _ _ _ _ hl, if_neg]
    simp [ha]
  group := by
    rw [Part.advance_group, Part.group_modGroup_self]
    exact (Group.keepsBut_putLanes _ _ _ _).trans (.of_same (Group.issued_same _ _ _) _)
  frame := (p.onlyGroup_setGroup t g _).trans (Part.onlyGroup_advance _ t g pc back)

theorem Part.Wrote.prepend {p p' q : Part} {t g vd : Nat} {f : Nat → W32} (hg : p'.group t g = p.group t g) (a : p.OnlyGroup p' t g)
    (b : p'.Wrote q t g vd f) : p.Wrote q t g vd f :=
  ⟨fun l hl ha => b.active l hl (hg ▸ ha), fun l hl ha => hg ▸ b.inactive l hl (hg ▸ ha), hg ▸ b.group, a.trans b.frame⟩

theorem Part.Wrote.append {p q q' : Part} {t g vd : Nat} {f : Nat → W32} (b : p.Wrote q t g vd f) (hg : q'.group t g = q.group t g)
    (a : q.OnlyGroup q' t g) : p.Wrote q' t g vd f :=
  ⟨fun l hl ha => hg ▸ b.active l hl ha, fun l hl ha => hg ▸ b.inactive l hl ha, hg ▸ b.group, b.frame.trans a⟩

theorem Part.onlyGroup_issued (p : Part) (t g : Nat) : p.OnlyGroup (p.inc TL_ISSUE_ISSUED 1 t) t g := p.onlyGroup_inc t g _ 1 t 0 (.inl rfl)

/-- Counting the instruction first. -/
theorem Part.Wrote.issued {p q : Part} {t g vd : Nat} {f : Nat → W32} (b : (p.inc TL_ISSUE_ISSUED 1 t).Wrote q t g vd f) : p.Wrote q t g vd f :=
  .prepend (p.group_inc _ _ _ _ _ _) (p.onlyGroup_issued t g) b

/-- An instruction that computes one register of each active lane. -/
theorem Part.alu_wrote {p : Part} {t g vd : Nat} {srcs : List Nat} (h : p.Ready t g (vd :: srcs) srcs) (f : Group → Nat → W32) :
    p.Wrote (p.alu t g vd srcs f) t g vd (f (p.group t g)) := by
  unfold Part.alu
  rw [Part.issue_ready h rfl]
  refine Part.Wrote.issued ?_
  exact Part.wrote_advance (p.inc TL_ISSUE_ISSUED 1 t) t g vd (f (p.group t g)) _ false

/-- The same with free values: lane `l` may use the one numbered `freeCtr + l`. -/
theorem Part.aluFree_wrote {p : Part} {t g vd : Nat} {srcs : List Nat} (h : p.Ready t g (vd :: srcs) srcs) (f : W32 → Group → Nat → W32) :
    p.Wrote (p.aluFree t g vd srcs f) t g vd (fun l => f (Config.freeWord (p.freeCtr + l)) (p.group t g) l) := by
  unfold Part.aluFree
  rw [Part.issue_ready h rfl]
  refine Part.Wrote.issued ?_
  have hw := Part.wrote_advance (p.inc TL_ISSUE_ISSUED 1 t) t g vd (fun l => f (Config.freeWord (p.freeCtr + l)) (p.group t g) l)
    ((((p.inc TL_ISSUE_ISSUED 1 t).modGroup t g fun y => y.putLanes vd y.act fun l => f (Config.freeWord (p.freeCtr + l)) (p.group t g) l).group t g).pc + 8) false
  exact hw.append rfl (Part.onlyGroup_free _ t g _)

/-! ## Paths -/

/-- A group with one path that no branch has split: the path goes on at `pc`, nothing rotates or rejoins. -/
theorem Group.issued_single {y : Group} {x : Path} (hp : y.paths = [x]) (hc : y.cur = 0) (hs : x.split = none) (pc : Pc) (back : Bool) :
    y.issued pc back = ({ y with paths := [{ x with pc := pc, slots := x.slots + 1, back := x.back || back }] }, false) := by
  have hset : ∀ (z : Group), (∃ w : Path, z.paths = [w] ∧ w.split = none) → z.settle 64 = z := by
    rintro z ⟨w, hz, hw⟩
    have : z.paths.findIdx? z.atReconv = none := by simp [hz, List.findIdx?_cons, Group.atReconv, hw]
    unfold Group.settle
    rw [this]
  unfold Group.issued
  simp only [hp, hc, List.modify_cons, List.modify_nil, if_pos]
  have hr : ∀ z : Group, z.paths.length = 1 → z.rotates back = false := by intro z hz; simp [Group.rotates, hz]
  rw [hr _ (by simp)]
  simp only [Bool.false_and, Bool.false_eq_true, if_false]
  rw [hset _ ⟨{ x with pc := pc, slots := x.slots + 1, back := x.back || back }, rfl, hs⟩]

end Sys2Proof.Machine
end

