-- ==== Sys2Proof/Laws/Fault.lean ====
section
/-! SUPPORT. Laws/Fault.lean: all that releasing a transaction and taking a precise fault can do (R161, R167, R175, R455). -/

namespace Sys2Proof.Machine

/-- What the release of a transaction leaves: registers outside the slices' block, other tiles and groups, the rest of the tile and group, memory. -/
structure Part.Released (p q : Part) (t g : Nat) : Prop where
  ctl    : ∀ (d : W64) k, ¬ (0x800000 ≤ k ∧ k < 0x900000) → mget d q.ctl k = mget d p.ctl k
  tiles  : ∀ t', t' ≠ t → q.tile t' = p.tile t'
  groups : ∀ g', g' ≠ g → q.group t g' = p.group t g'
  group  : q.group t g = { p.group t g with tx := none }
  tile   : { q.tile t with groups := [] } = { p.tile t with groups := [] }
  rest   : { q with tiles := [], ctl := [], slices := [], net := [] } = { p with tiles := [], ctl := [], slices := [], net := [] }

theorem Part.served_lt (p : Part) (a : Nat) : p.served a < 256 := Nat.mod_lt _ (by decide)

theorem Part.txRelease_released (p : Part) (t g code : Nat) : p.Released (p.txRelease t g code) t g := by
  unfold Part.txRelease
  split
  · next h => exact ⟨fun _ _ _ => rfl, fun _ _ => rfl, fun _ _ => rfl, by rw [← h], rfl, rfl⟩
  · next x h =>
    dsimp only
    have key : ∀ q : Part, (∀ (d : W64) k, ¬ (0x800000 ≤ k ∧ k < 0x900000) → mget d q.ctl k = mget d p.ctl k) → q.tiles = p.tiles →
        { q with tiles := [], ctl := [], slices := [], net := [] } = ({ p with tiles := [], ctl := [], slices := [], net := [] } : Part) →
        p.Released (q.modGroup t g fun y => { y with tx := none }) t g := by
      intro q hc ht hr
      have htile : ∀ t', q.tile t' = p.tile t' := by intro t'; simp [Part.tile, ht]
      refine ⟨hc, fun t' h' => ?_, fun g' h' => ?_, ?_, ?_, ?_⟩
      · simp [Part.modGroup, Part.setGroup, Part.tile_setTile, h', htile]
      · rw [Part.modGroup, Part.group_setGroup_ne _ _ (.inr h')]; simp [Part.group, htile]
      · rw [Part.group_modGroup_self]; simp only [Part.group, htile]
      · simp [Part.modGroup, Part.setGroup, Tile.setGroup, htile]
      · exact hr
    split
    · exact key _ (fun _ _ _ => rfl) rfl rfl
    · rename_i l _ _ _ _
      split
      · exact key _ (fun _ _ _ => rfl) rfl rfl
      · refine key _ ?_ rfl rfl
        have hs := p.served_lt l
        intro d k hk
        unfold Part.inc Part.wr
        rw [mget_setReg_high, mget_setReg_high]
        · rfl
        all_goals simp only [Reg.key, LLC_TX_LAST_ABORT, LLC_TX_ABORTS, reg_LLC_TX]; omega

/-! ## Capturing a fault -/

/-- `q` differs from `p` in the registers of the tiles' block alone. -/
def Part.TlOnly (p q : Part) : Prop := ∃ c, q = { p with ctl := c }

theorem Part.TlOnly.wr {p q : Part} (a : p.TlOnly q) (f : Fld) (v i j : Nat) : p.TlOnly (q.wr f v i j) := by
  obtain ⟨c, rfl⟩ := a
  exact ⟨_, rfl⟩

theorem Part.capture_only (p : Part) (t g : Nat) (f : FaultInfo) (pc : Pc) (bf : Bool) (b : Nat) : p.TlOnly (p.capture t g f pc bf b) := by
  unfold Part.capture
  dsimp only
  have h0 : p.TlOnly (p.inc TL_COUNTS_FAULTS 1 t) := Part.TlOnly.wr ⟨p.ctl, rfl⟩ _ _ _ _
  split
  · exact h0.wr _ _ _ _
  · exact ((((((((((h0.wr _ _ _ _).wr _ _ _ _).wr _ _ _ _).wr _ _ _ _).wr _ _ _ _).wr _ _ _ _).wr _ _ _ _).wr _ _ _ _).wr _ _ _ _).wr _ _ _ _).wr _ _ _ _

/-- Fields of one tile's fault registers through the writes of the others. -/
theorem rd_wr_tl (p : Part) {f f' : Fld} (v t : Nat)
    (h : (f'.reg.key t 0 ≠ f.reg.key t 0) ∨ (f'.reg = f.reg ∧ (f.lo + f.wid ≤ f'.lo ∨ f'.lo + f'.wid ≤ f.lo))) :
    (p.wr f v t).rd f' t = p.rd f' t := by
  rcases h with h | ⟨h, h'⟩
  · exact p.rd_wr_key v h
  · exact p.rd_wr_fld t 0 v h h'

theorem Part.capture_first (p : Part) (t g : Nat) (f : FaultInfo) (pc : Pc) (bf : Bool) (b : Nat) (h : p.rd TL_EVENTS_FAULT t = 0) :
    (p.capture t g f pc bf b).rd TL_FAULT_CODE t = f.code % 2 ^ 16 ∧ (p.capture t g f pc bf b).rd TL_FAULT_GROUP t = (if bf then 0 else g) % 2 ^ 4 ∧
    (p.capture t g f pc bf b).rd TL_FAULT_BLOCK t = b % 2 ^ 3 ∧ (p.capture t g f pc bf b).rd TL_FAULT_BLOCK_FAULT t = b2n bf % 2 ∧
    (p.capture t g f pc bf b).rd TL_FAULT_PC_PC t = pc.toNat ∧ (p.capture t g f pc bf b).rd TL_FAULT_PC_MORE t = 0 ∧
    (p.capture t g f pc bf b).rd TL_FAULT_ADDR_ADDR t = f.addr % 2 ^ 64 ∧ (p.capture t g f pc bf b).rd TL_EVENTS_FAULT t = 1 := by
  have hk : (p.inc TL_COUNTS_FAULTS 1 t).rd TL_EVENTS_FAULT t = 0 := by
    rw [p.rd_inc_key 1 (by simp only [Reg.key, TL_EVENTS_FAULT, TL_COUNTS_FAULTS, reg_TL_EVENTS, reg_TL_COUNTS]; omega), h]
  have hpc : pc.toNat % 2 ^ 48 = pc.toNat := Nat.mod_eq_of_lt pc.isLt
  unfold Part.capture
  dsimp only
  rw [if_neg (by rw [hk]; decide)]
  unfold Part.set1
  refine ⟨?_, ?_, ?_, ?_, ?_, ?_, ?_, ?_⟩
  all_goals
    repeat first
      | (rw [Part.rd_wr_self _ _ _ _ _ (by decide)]; first | rfl | exact hpc)
      | rw [rd_wr_tl _ _ _ (by
          first
          | (left; simp only [Reg.key, TL_EVENTS_FAULT, TL_FAULT_ADDR_ADDR, TL_FAULT_PC_MORE, TL_FAULT_PC_PC, TL_FAULT_VF, TL_FAULT_STEP, TL_FAULT_LANES,
              TL_FAULT_BLOCK_FAULT, TL_FAULT_BLOCK, TL_FAULT_GROUP, TL_FAULT_CODE, reg_TL_EVENTS, reg_TL_FAULT_ADDR, reg_TL_FAULT_PC, reg_TL_FAULT]; omega)
          | (right; exact ⟨rfl, by decide⟩))]

theorem Part.capture_more (p : Part) (t g : Nat) (f : FaultInfo) (pc : Pc) (bf : Bool) (b : Nat) (h : p.rd TL_EVENTS_FAULT t = 1) :
    (p.capture t g f pc bf b).rd TL_FAULT_PC_MORE t = 1 ∧ (p.capture t g f pc bf b).rd TL_FAULT_CODE t = p.rd TL_FAULT_CODE t ∧
    (p.capture t g f pc bf b).rd TL_EVENTS_FAULT t = 1 := by
  have hk : (p.inc TL_COUNTS_FAULTS 1 t).rd TL_EVENTS_FAULT t = 1 := by
    rw [p.rd_inc_key 1 (by simp only [Reg.key, TL_EVENTS_FAULT, TL_COUNTS_FAULTS, reg_TL_EVENTS, reg_TL_COUNTS]; omega), h]
  have hc : (p.inc TL_COUNTS_FAULTS 1 t).rd TL_FAULT_CODE t = p.rd TL_FAULT_CODE t :=
    p.rd_inc_key 1 (by simp only [Reg.key, TL_FAULT_CODE, TL_COUNTS_FAULTS, reg_TL_FAULT, reg_TL_COUNTS]; omega)
  unfold Part.capture
  dsimp only
  rw [if_pos hk]
  unfold Part.set1
  refine ⟨Part.rd_wr_self _ _ _ _ _ (by decide), ?_, ?_⟩
  · rw [rd_wr_tl _ _ _ (.inl (by simp only [Reg.key, TL_FAULT_CODE, TL_FAULT_PC_MORE, reg_TL_FAULT, reg_TL_FAULT_PC]; omega)), hc]
  · rw [rd_wr_tl _ _ _ (.inl (by simp only [Reg.key, TL_EVENTS_FAULT, TL_FAULT_PC_MORE, reg_TL_EVENTS, reg_TL_FAULT_PC]; omega)), hk]

/-! ## The end of the tile's work -/

/-- Ending the work of a tile marks it faulted, records the kernel's first fault or the step's, and writes the log. -/
structure Part.Ended (p q : Part) (t : Nat) : Prop where
  ctl   : ∀ (d : W64) k, 0x10000 ≤ k → mget d q.ctl k = mget d p.ctl k
  tile  : q.tile t = { p.tile t with faulted := true }
  tiles : ∀ t', t' ≠ t → q.tile t' = p.tile t'
  rest  : { q with tiles := [], ctl := [], host := {}, sched := {}, step := {}, repair := {}, out := [] } =
          { p with tiles := [], ctl := [], host := {}, sched := {}, step := {}, repair := {}, out := [] }

theorem Part.Ended.log {p q r : Part} {t : Nat} (a : p.Ended q t) (b : q.LogOnly r) : p.Ended r t := by
  obtain ⟨c, h, o, rep, rfl, hk⟩ := b
  exact ⟨fun d k h' => (hk d k h').trans (a.ctl d k h'), a.tile, a.tiles, a.rest⟩

theorem Part.Ended.sched {p q : Part} {t : Nat} (a : p.Ended q t) (x : Sched) : p.Ended { q with sched := x } t := ⟨a.ctl, a.tile, a.tiles, a.rest⟩
theorem Part.Ended.step {p q : Part} {t : Nat} (a : p.Ended q t) (x : Step) : p.Ended { q with step := x } t := ⟨a.ctl, a.tile, a.tiles, a.rest⟩

theorem Part.kernelFault_eq (p : Part) (k t code : Nat) : ∃ x, p.kernelFault k t code = { p with sched := x } := by
  unfold Part.kernelFault
  split <;> exact ⟨_, rfl⟩

theorem Part.endWork_ended (p : Part) (t code addr : Nat) : p.Ended (p.endWork t code addr) t := by
  have h0 : p.Ended (p.modTile t fun x => { x with faulted := true }) t :=
    ⟨fun _ _ _ => rfl, by simp, fun t' h' => by simp [Part.modTile, Part.tile_setTile, h'], rfl⟩
  unfold Part.endWork
  dsimp only
  generalize (p.modTile t fun x => { x with faulted := true }) = q at h0
  split
  · next k _ =>
    obtain ⟨x, e⟩ := q.kernelFault_eq k t code
    rw [e]
    exact (h0.sched x).log (Part.log_only _ _ _ _ _ _ _ _ _)
  · exact (h0.step _).log (Part.log_only _ _ _ _ _ _ _ _ _)
  · exact h0

/-- A precise fault. -/
theorem Part.fault_took (p : Part) (t g : Nat) (f : FaultInfo) (hg : g < 16) (hc : f.code < 65536) : p.TookFault (p.fault t g f) t g f.code f.addr := by
  unfold Part.fault
  dsimp only
  have hr := p.txRelease_released t g 15
  generalize p.txRelease t g 15 = p1 at hr
  have hrd : ∀ f' : Fld, (f'.reg.key t 0 < 0x800000 ∨ 0x900000 ≤ f'.reg.key t 0) → p1.rd f' t = p.rd f' t := by
    intro f' h; simp only [Part.rd, Part.reg]; rw [hr.ctl _ _ (by omega)]
  have hev : p1.rd TL_EVENTS_FAULT t = p.rd TL_EVENTS_FAULT t := hrd _ (.inr (by simp only [Reg.key, TL_EVENTS_FAULT, reg_TL_EVENTS]; omega))
  have hcd : p1.rd TL_FAULT_CODE t = p.rd TL_FAULT_CODE t := hrd _ (.inr (by simp only [Reg.key, TL_FAULT_CODE, reg_TL_FAULT]; omega))
  have hcap := p1.capture_only t g f (p.group t g).pc false (p.group t g).block
  have hfirst := fun h => p1.capture_first t g f (p.group t g).pc false (p.group t g).block h
  have hmore := fun h => p1.capture_more t g f (p.group t g).pc false (p.group t g).block h
  generalize p1.capture t g f (p.group t g).pc false (p.group t g).block = p2 at hcap hfirst hmore
  obtain ⟨c, rfl⟩ := hcap
  have he := Part.endWork_ended { p1 with ctl := c } t f.code f.addr
  generalize Part.endWork { p1 with ctl := c } t f.code f.addr = q at he
  have hq : ∀ f' : Fld, 0x10000 ≤ f'.reg.key t 0 → q.rd f' t = Part.rd { p1 with ctl := c } f' t := by
    intro f' h; simp only [Part.rd, Part.reg]; rw [he.ctl _ _ h]
  have hgrp : ∀ g', q.group t g' = p1.group t g' := by
    intro g'; simp only [Part.group, he.tile]; rfl
  have hmem : ∀ a, q.byteAt a = p.byteAt a := by
    intro a
    have h1 := congrArg Part.mem he.rest
    have h2 := congrArg Part.dirty he.rest
    have h3 := congrArg Part.dead he.rest
    have h4 := congrArg Part.mem hr.rest
    have h5 := congrArg Part.dirty hr.rest
    have h6 := congrArg Part.dead hr.rest
    simp only at h1 h2 h3 h4 h5 h6
    simp only [Part.byteAt, h1, h2, h3, h4, h5, h6]
  have hev01 : p.rd TL_EVENTS_FAULT t = 0 ∨ p.rd TL_EVENTS_FAULT t = 1 := by
    have := p.rd_lt TL_EVENTS_FAULT t 0
    simp only [TL_EVENTS_FAULT] at this ⊢
    omega
  have k1 : 0x10000 ≤ TL_EVENTS_FAULT.reg.key t 0 := by simp only [Reg.key, TL_EVENTS_FAULT, reg_TL_EVENTS]; omega
  have k2 : 0x10000 ≤ TL_FAULT_CODE.reg.key t 0 := by simp only [Reg.key, TL_FAULT_CODE, reg_TL_FAULT]; omega
  have k3 : 0x10000 ≤ TL_FAULT_PC_PC.reg.key t 0 := by simp only [Reg.key, TL_FAULT_PC_PC, reg_TL_FAULT_PC]; omega
  have k4 : 0x10000 ≤ TL_FAULT_ADDR_ADDR.reg.key t 0 := by simp only [Reg.key, TL_FAULT_ADDR_ADDR, reg_TL_FAULT_ADDR]; omega
  refine ⟨by rw [he.tile], ?_, fun h => ?_, fun h => ?_, by rw [hgrp, hr.group], fun g' h => by rw [hgrp, hr.groups g' h], fun t' h => ?_, hmem⟩
  · rw [hq _ k1]
    rcases hev01 with h | h
    · exact (hfirst (hev.trans h)).2.2.2.2.2.2.2
    · exact (hmore (hev.trans h)).2.2
  · have := hfirst (hev.trans h)
    rw [hq _ k2, hq TL_FAULT_GROUP k2, hq _ k3, hq _ k4, hq TL_FAULT_PC_MORE k3]
    refine ⟨this.1.trans (Nat.mod_eq_of_lt hc), this.2.1.trans ?_, this.2.2.2.2.1, this.2.2.2.2.2.2.1, this.2.2.2.2.2.1⟩
    simp; omega
  · have := hmore (hev.trans h)
    rw [hq TL_FAULT_PC_MORE k3, hq _ k2, ← hcd]
    exact ⟨this.1, this.2.1⟩
  · rw [he.tiles t' h]; exact hr.tiles t' h

/-- A fault of an instruction that has been counted as issued. -/
theorem Part.fault_issued (p : Part) (t g : Nat) (f : FaultInfo) (hg : g < 16) (hc : f.code < 65536) :
    p.TookFault ((p.inc TL_ISSUE_ISSUED 1 t).fault t g f) t g f.code f.addr := by
  have h := Part.fault_took (p.inc TL_ISSUE_ISSUED 1 t) t g f hg hc
  have hk : ∀ f' : Fld, f'.reg.key t 0 ≠ reg_TL_ISSUE.key t 0 → (p.inc TL_ISSUE_ISSUED 1 t).rd f' t = p.rd f' t := fun f' h => p.rd_inc_key 1 h
  have e1 := hk TL_EVENTS_FAULT (by simp only [Reg.key, TL_EVENTS_FAULT, reg_TL_EVENTS, reg_TL_ISSUE]; omega)
  have e2 := hk TL_FAULT_CODE (by simp only [Reg.key, TL_FAULT_CODE, reg_TL_FAULT, reg_TL_ISSUE]; omega)
  exact ⟨h.faulted, h.event, fun a => h.first (e1.trans a), fun a => by rw [← e2]; exact h.more (e1.trans a), h.group, h.others, h.tiles, h.mem⟩

end Sys2Proof.Machine
end

