-- ==== Sys2Proof/Laws/Memory.lean ====
section
/-! SUPPORT. Laws/Memory.lean: every operation on memory keeps its canonical form and lists each dirty byte once; a byte written is read back. -/

namespace Sys2Proof.Machine

/-! ## Dirty bytes in order -/

theorem mins_above {α : Type} (n k : Nat) (v : α) (hk : n < k) (m : List (Nat × α)) (h : ∀ c ∈ m, n < c.1) : ∀ c ∈ mins m k v, n < c.1 := by
  induction m with
  | nil => simpa [mins] using hk
  | cons c m ih =>
    obtain ⟨j, w⟩ := c
    unfold mins
    intro c hc
    split at hc
    · rcases List.mem_cons.1 hc with rfl | hc
      · exact hk
      · exact h c hc
    · split at hc
      · rcases List.mem_cons.1 hc with rfl | hc
        · exact hk
        · exact h c (List.mem_cons_of_mem _ hc)
      · rcases List.mem_cons.1 hc with rfl | hc
        · exact h (j, w) (by simp)
        · exact ih (fun d hd => h d (List.mem_cons_of_mem _ hd)) c hc

theorem mins_rising {α : Type} (k : Nat) (v : α) (m : List (Nat × α)) (h : m.Pairwise fun a b => a.1 < b.1) :
    (mins m k v).Pairwise fun a b => a.1 < b.1 := by
  induction m with
  | nil => simp [mins]
  | cons c m ih =>
    obtain ⟨j, w⟩ := c
    obtain ⟨h1, h2⟩ := List.pairwise_cons.1 h
    unfold mins
    split
    · next hk =>
      refine List.pairwise_cons.2 ⟨fun c hc => ?_, h⟩
      rcases List.mem_cons.1 hc with rfl | hc
      · exact hk
      · exact Nat.lt_trans hk (h1 c hc)
    · split
      · next hj => exact List.pairwise_cons.2 ⟨fun c hc => hj ▸ h1 c hc, h2⟩
      · next a b => exact List.pairwise_cons.2 ⟨mins_above j k v (by omega) m h1, ih h2⟩

/-! ## Memory's form -/

/-- What every operation on memory keeps. -/
structure Part.MemOk (p : Part) : Prop where
  mem   : Memory.wf p.mem = true
  dirty : p.dirtyWf

variable {p : Part}

theorem Part.MemOk.putMems (h : p.MemOk) (l : List (Nat × Byte)) : (p.putMems l).MemOk := ⟨mwf_foldl_mput 0 l p.mem h.mem, h.dirty⟩

theorem Part.MemOk.putDirtys (h : p.MemOk) (l : List (Nat × Byte)) : (p.putDirtys l).MemOk := by
  refine ⟨h.mem, ?_⟩
  have : ∀ m : List (Nat × Byte), m.Pairwise (fun a b => a.1 < b.1) → (l.foldl (fun m c => mins m c.1 c.2) m).Pairwise fun a b => a.1 < b.1 := by
    induction l with
    | nil => exact fun m hm => hm
    | cons c l ih => exact fun m hm => ih _ (mins_rising c.1 c.2 m hm)
  exact this p.dirty h.dirty

/-- Nothing but memory and dirty bytes counts. -/
theorem Part.MemOk.of_eq {q : Part} (h : p.MemOk) (hm : q.mem = p.mem) (hd : q.dirty = p.dirty) : q.MemOk :=
  ⟨hm ▸ h.mem, by unfold Part.dirtyWf; rw [hd]; exact h.dirty⟩

theorem Part.MemOk.keepDirty (h : p.MemOk) (f : Nat × Byte → Bool) : ({ p with dirty := p.dirty.filter f } : Part).MemOk :=
  ⟨h.mem, List.Pairwise.filter f h.dirty⟩

theorem Part.MemOk.writeBack (h : p.MemOk) (x : Nat) : (p.writeBack x).MemOk := (h.putMems _).keepDirty _

theorem Part.MemOk.dropDirty (h : p.MemOk) (x : Nat) : (p.dropDirty x).MemOk := h.keepDirty _

theorem Part.MemOk.zeroPin (h : p.MemOk) (a n : Nat) : (p.zeroPin a n).MemOk := ⟨mwf_filter 0 _ p.mem h.mem, h.dirty⟩

/-- Poison and dead lines are no part of it. -/
theorem Part.MemOk.setDead (h : p.MemOk) (d : List Nat) : ({ p with dead := d } : Part).MemOk := ⟨h.mem, h.dirty⟩
theorem Part.MemOk.setPoison (h : p.MemOk) (d : List Nat) : ({ p with poison := d } : Part).MemOk := ⟨h.mem, h.dirty⟩

theorem Part.MemOk.kill (h : p.MemOk) (l : Nat) : (p.kill l).MemOk := by
  unfold Part.kill
  refine Part.MemOk.setDead ?_ _
  split
  · exact (h.setPoison _).putMems _
  · exact (h.setPoison _).dropDirty _

theorem Part.MemOk.revive (h : p.MemOk) (l : Nat) : (p.revive l).MemOk := by
  unfold Part.revive
  have hw : ∀ (d q : List Nat) (x : Hbm), ({ p with dead := d, poison := q, hbm := x } : Part).MemOk := fun _ _ _ => ⟨h.mem, h.dirty⟩
  dsimp only
  split
  · split
    · exact (hw _ _ _).putMems _
    · exact (hw _ _ _).putDirtys _
  · exact h

theorem Part.MemOk.storeAt (h : p.MemOk) (a : Nat) (bs : List (Nat × Byte)) : (p.storeAt a bs).MemOk := by
  unfold Part.storeAt
  dsimp only
  split <;> split
  · exact (h.putMems _).of_eq rfl rfl
  · exact (h.putDirtys _).of_eq rfl rfl
  · exact h.putMems _
  · exact h.putDirtys _

/-- What ends with a write to a line changes no memory. -/
theorem Part.MemOk.abortClaims (h : p.MemOk) (s line code : Nat) (who : Claim → Bool) : (p.abortClaims s line code who).MemOk := by
  unfold Part.abortClaims
  generalize ((p.slice s).claims.filter fun c => c.line = line && who c) = cs
  induction cs generalizing p with
  | nil => exact h
  | cons c cs ih =>
    rw [List.foldl_cons]
    refine ih ?_
    split
    · exact ⟨h.mem, h.dirty⟩
    · exact h

theorem Part.MemOk.wrote (h : p.MemOk) (s line : Nat) : (p.wrote s line).MemOk :=
  Part.MemOk.abortClaims (p := p.modSlice s fun z => { z with rsvs := z.rsvs.filter fun r => r.line ≠ line }) ⟨h.mem, h.dirty⟩ _ _ _ _

theorem Part.MemOk.markWay (h : p.MemOk) (s a : Nat) (all : Bool) : (p.markWay s a all).MemOk := by
  unfold Part.markWay
  dsimp only
  split
  · exact h
  · exact ⟨h.mem, h.dirty⟩

/-- A store at a slice, with all that it ends (R393, R472). -/
theorem Part.MemOk.performStore (h : p.MemOk) (s a : Nat) (bs : List (Nat × Byte)) : (p.performStore s a bs).MemOk :=
  (((h.revive _).storeAt _ _).markWay _ _ _).wrote _ _

/-! ## Read after write -/

/-- A byte that is not written reads as before. -/
theorem Part.mget_putMems_other (l : List (Nat × Byte)) (a : Nat) (ha : ∀ c ∈ l, c.1 ≠ a) : mget 0 (p.putMems l).mem a = mget 0 p.mem a := by
  have : ∀ m : List (Nat × Byte), mget 0 (l.foldl (fun m c => mput 0 m c.1 c.2) m) a = mget 0 m a := by
    induction l with
    | nil => exact fun _ => rfl
    | cons c l ih =>
      intro m
      rw [List.foldl_cons, ih (fun d hd => ha d (List.mem_cons_of_mem _ hd)), mget_mput_ne 0 m c.2 (fun e => ha c (by simp) e.symm)]
  exact this p.mem

theorem Part.mget_putMems_last (l : List (Nat × Byte)) (a : Nat) (b : Byte) : mget 0 (p.putMems (l ++ [(a, b)])).mem a = b := by
  simp [Part.putMems, List.foldl_append]

/-- The reset state's memory is in canonical form. -/
theorem reset_memOk : State.reset.part.MemOk := ⟨rfl, List.Pairwise.nil⟩

end Sys2Proof.Machine
end

