-- ==== Sys2Proof/Tests/Slice0.lean ====
section
/-! SUPPORT. Tests/Slice0.lean: what WellFormed refuses; results the manual states, on small states; states that meet the hypotheses of each statement.
Expected values are the manual's (the rule is named) or hand arithmetic. -/

namespace Sys2Proof.Tests

open Sys2Proof.Machine

-- One theorem is checked at a time: many at once need more threads than the memory limit of the check allows.
set_option Elab.async false

/-! ## States -/

/-- A part in the Running stage with window 0 over the first 4 GiB of HBM, granted to every function. -/
def part0 : Part :=
  ((((({} : Part).wr HUSK_STATUS_STAGE 7).wr UCI_STATUS_ATTACHED 1).wr LLC_WIN_BASE_VALID 1).wr LLC_WIN_SIZE_SIZE_4K 0x100000).wr LLC_WIN_GRANT_FN (2 ^ 64 - 1)

/-- A part as a state. -/
def st (p : Part) : State := { part := p }

/-- A group of 32 threads at address 0x1000 with 16 registers. -/
def group0 : Group := { nReg := 16, live := -1, paths := [{ pc := 0x1000, mask := -1 }] }

/-- Tile 0 runs the step program with one group `y` in one block. -/
def onTile (y : Group) : Part :=
  part0.setTile 0 { work := .step, blocks := [(0, { used := true, base := 0x100, size := 0x1000 })], groups := if y = {} then [] else [(0, y)] }

/-- Packets of the manager, of function 1, and of the board controller. -/
def cmdM (op : BitVec 16) : Issue := { op, cls := .m, fn := 0, sq := 0, tag := 5, gen := 1, notify := false, remote := none, origin := none, outLen := 4096 }
def cmdT (op : BitVec 16) : Issue := { op, cls := .t, fn := 1, sq := 0, tag := 5, gen := 1, notify := false, remote := none, origin := none, outLen := 4096 }
def cmdB (op : BitVec 16) : Issue := { op, cls := .b, fn := 0, sq := 0, tag := 5, gen := 1, notify := false, remote := none, origin := none, outLen := 0 }

/-- The part a command leaves. -/
def out (r : Host.Outcome State Fault Refusal) : Part := match r with
  | .next t => t.part
  | _ => {}

/-! ## WellFormed refuses -/

theorem test_wf_registers : (Instr.iadd 0 0 256 0 0).wf = false ∧ (Instr.fma 0 0 0 0 0 256).wf = false ∧ (Instr.select 0 0 0 256 0 0).wf = false ∧
    (Instr.atomCas 0 0 .u32 ⟨false, false, false⟩ 0 0 0 256).wf = false := by decide

/-- An access without ordering marks. -/
def plain : Marks := ⟨false, false, false⟩

theorem test_wf_sizes : (Instr.ld 0 0 3 false plain 0 0).wf = false ∧ (Instr.ld 0 0 4 true plain 0 0).wf = false ∧ (Instr.ld 0 0 2 true plain 0 0).wf = true ∧
    (Instr.stS 0 0 32 0 0).wf = false ∧ (Instr.ldS 0 0 8 true 0 0).wf = false := by decide

theorem test_wf_widths : (Instr.rcRead 0 2).wf = false ∧ (Instr.registerWrite 0 16 0).wf = false ∧ (Instr.bar0Access 0 1 false 0).wf = false := by decide

theorem test_wf_packets : (Instr.nop (cmdM 2)).wf = false ∧ (Instr.nop { cmdM 1 with outLen := 4097 }).wf = false ∧ (Instr.nop { cmdM 1 with fn := 1 }).wf = false ∧
    (Instr.nop { cmdT 1 with fn := 0 }).wf = false := by decide

/-- A request of device 1 for function 0. -/
def req (addr len : Nat) : RemoteReq := { port := 0, key := { sender := 1, ingest := false, fn := 0, step := false, sid := 0 }, seq := 0, addr, len }
def bytes (n : Nat) : List Byte := List.replicate n 0

theorem test_wf_traffic : (Instr.rd (req 0 32) .ok 0).wf = false ∧ (Instr.rd (req 0 1088) .ok 0).wf = false ∧ (Instr.rd (req 0 96) .ok 0).wf = false ∧
    (Instr.rd (req 32 64) .ok 0).wf = false ∧ (Instr.rd (req 4032 128) .ok 0).wf = false ∧ (Instr.rd (req 3072 1024) .ok 0).wf = true := by decide

theorem test_wf_writes : (Instr.wr (req 0 64) (.store (bytes 63) (List.replicate 64 true)) none .ok 0).wf = false ∧
    (Instr.wr (req 0 64) (.store (bytes 64) (List.replicate 63 true)) none .ok 0).wf = false ∧
    (Instr.wr (req 0 128) (.red .add .i32 []) none .ok 0).wf = false ∧ (Instr.wr (req 0 64) (.red .add .i32 [(64, 0)]) none .ok 0).wf = false ∧
    (Instr.amo (req 0 64) (.ldrsv false false) 0 (List.replicate 33 ⟨0, 0, 0, 0⟩) .ok).wf = false ∧
    (Instr.amo (req 0 128) (.ldrsv false false) 0 [] .ok).wf = false := by decide

/-- √2, log₂ 3, sin 1 and cos 1 as a table gives them, at the edge of the bounds of R255 and past it. -/
theorem test_special_bounds : exp2Near 0x3FB504F5 false 1 (-1) = 0x3FB504F5 ∧ exp2Near 0x3FB504F2 false 1 (-1) = 0x3FB504F2 ∧
    exp2Near 0x3FB504F6 false 1 (-1) = 0x3FB504F3 ∧ exp2Near 0x41FFFFFE false 5 0 = 0x41FFFFFE ∧ exp2Near 0x41FFFFFD false 5 0 = 0x42000000 ∧
    log2Near 0 3 0 = 0x3FCAE00D ∧ trigNear 0x7FC00000 (trigValue false false 1 0) = 0x3F576AA4 ∧
    trigNear 0x7FC00000 (trigValue true false 1 0) = 0x3F0A5140 := by decide +kernel

/-- A LAUNCH on pod 0. -/
def launch0 : LaunchParams := { code := 0x1000, blocks := 1, nReg := 16, groups := 1, l1Size := 0, localBytes := 0, pods := 1, argPtr := 0 }

theorem test_wf_launch : (Instr.launch (cmdT 0x0401) { launch0 with code := 2 ^ 64 }).wf = false ∧
    (Instr.launch (cmdT 0x0401) { launch0 with blocks := 2 ^ 32 }).wf = false ∧ (Instr.launch (cmdT 0x0401) { launch0 with nReg := 2 ^ 16 }).wf = false ∧
    (Instr.launch (cmdT 0x0401) { launch0 with groups := 256 }).wf = false ∧ (Instr.launch (cmdT 0x0401) { launch0 with l1Size := 256 }).wf = false ∧
    (Instr.launch (cmdT 0x0401) { launch0 with localBytes := 2 ^ 32 }).wf = false ∧ (Instr.launch (cmdT 0x0401) { launch0 with argPtr := 2 ^ 64 }).wf = false ∧
    (Instr.launch (cmdT 0x0401) launch0).wf = true := by decide

theorem test_wf_lengths : (Instr.slotReadData 0 0 (bytes 127)).wf = false ∧ (Instr.bar2Access 0 false 4097 []).wf = false ∧
    (Instr.seqRead (cmdM 0x0306) 0 129).wf = false ∧ (Instr.getAttest (cmdB 0x0801) (bytes 65)).wf = false ∧
    (Instr.controlCoreLoadStore 0 false (2 ^ 48) 8 []).wf = false ∧ (Instr.goldenData 0 (bytes 64) false 0).wf = false ∧
    (Instr.blockWrite 0 (bytes 241) true).wf = false := by decide +kernel

theorem test_wf_long_data : (Instr.memWrite (cmdM 0x0208) 0 (bytes 4089)).wf = false ∧ (Instr.pmapUpdate (cmdM 0x0209) 0 0 (List.replicate 511 0)).wf = false ∧
    (Instr.hint (cmdM 0x0307) (List.replicate 512 0)).wf = false ∧ (Instr.fwLoad (cmdM 0x0803) 0 (bytes 4089)).wf = false ∧
    (Instr.imagePush (cmdB 0x0805) 0 (bytes 4089)).wf = false ∧ (Instr.symbiteFwd 1 false 0 .m 0 1 (bytes 4161)).wf = false ∧
    (Instr.slotReadData 0 0 (bytes 4097)).wf = false ∧ (Instr.bar2Access 0 true 0 (bytes 4097)).wf = false := by decide +kernel

/-- A completion queue 1 of function 0, and a window, as packets spell them. -/
def queue1 : QueueParams := { completion := true, events := false, queue := 1, targetFn := 0, entriesLog2 := 4, slotLog2 := 7, vector := 0, cq := 0, base := 0x1000 }
def win1 : WinParams := { base := 2 ^ 32, size4k := 16, attr := 0, ways := 0xFFFF, grant := 1, gold0 := 0, gold1 := 0 }

theorem test_wf_fields : (Instr.queueCreate (cmdM 0x0101) { queue1 with queue := 256 }).wf = false ∧ (Instr.queueCreate (cmdM 0x0101) queue1).wf = true ∧
    (Instr.windowCreate (cmdM 0x0201) { win1 with base := 2 ^ 48 }).wf = false ∧ (Instr.windowCreate (cmdM 0x0201) win1).wf = true := by decide

/-! ## The machine (statements on steps, fatal errors, package reset, boot-only writes) -/

/-- `st part0` with a fatal error, and in package reset. -/
def dead0 : State := st (part0.wr GLOBAL_ELOG_STATUS_FATAL 1)
def held0 : State := { st part0 with pins := { porN := false, inReset := true } }

theorem live_part0 : (st part0).live := by unfold State.live; decide +kernel

theorem witness_StepTakesFirstCommand : ({ st part0 with pending := [.gateOpen] } : State).pending = .gateOpen :: [] ∧ (st part0).pending = [] ∧
    (st part0).pins.inReset = false ∧ held0.pending = [] ∧ held0.pins.inReset = true := by decide +kernel

theorem witness_FatalErrorHoldsState : dead0.part.fatal = true ∧ Instr.actsWhenFatal (.stepStart 0) = false := by decide +kernel

theorem witness_PackageResetHoldsState : held0.pins.inReset = true ∧ Instr.actsInReset (.stepStart 0) = false := by decide +kernel

theorem witness_PorLowKeepsReset : (held0.pins.porN = false → held0.pins.inReset = true) ∧ (Instr.nop (cmdM 1)).actsInReset = false ∧
    ∃ t, step { held0 with pending := [.railInRegulation] } = .next t ∧ t.pins.inReset = true := ⟨fun _ => rfl, rfl, _, rfl, rfl⟩

theorem witness_SerialMemoryChangedByFewRows : (Instr.stepStart 0).writesSerial = false ∧ (st part0).part.stage ≠ 8 ∧
    (∃ t, exec (.stepStart 0) (st part0) = .next t) := ⟨rfl, by decide +kernel, _, rfl⟩

theorem fnsOk_none (p : Part) (h : p.sched = {}) : p.FnsOk := by
  constructor
  · intro k x hx
    rw [Part.kernel, h] at hx
    cases hx
  · intro v hv
    rw [h] at hv
    cases hv

theorem witness_MemoryStaysCanonical : (st part0).memoryWf ∧ (st part0).part.dirtyWf ∧ (st part0).part.FnsOk ∧ ∃ t, step (st part0) = .next t :=
  ⟨rfl, List.Pairwise.nil, fnsOk_none _ rfl, _, rfl⟩

/-! ## Thread groups (03, 05) -/

/-- `Ready` and `live` as Bools. -/
def readyB (p : Part) (t g : Nat) (named srcs : List Nat) : Bool :=
  p.canIssue t g && (p.group t g).srcReady srcs && (p.fetchFault t g).isNone && ((p.group t g).regFault named srcs).isNone

theorem ready_of {p : Part} {t g : Nat} {named srcs : List Nat} (h : readyB p t g named srcs = true) : p.Ready t g named srcs := by
  simp only [readyB, Bool.and_eq_true, Option.isNone_iff_eq_none] at h
  exact ⟨h.1.1.1, h.1.1.2, h.1.2, h.2⟩

theorem live_of {s : State} (h : (!s.pins.inReset && !s.part.fatal) = true) : s.live := by
  simp only [Bool.and_eq_true, Bool.not_eq_true'] at h
  exact h

theorem live_onTile : (st (onTile group0)).live := live_of (by decide +kernel)

theorem witness_IntegerAndLogicResults : (st (onTile group0)).live ∧ (st (onTile group0)).part.Ready 0 0 [0, 1, 2] [1, 2] ∧
    (st (onTile group0)).part.Ready 0 0 [0, 1] [1] ∧ (st (onTile group0)).part.Ready 0 0 [0, 15, 1, 2] [15, 1, 2] :=
  ⟨live_onTile, ready_of (by decide +kernel), ready_of (by decide +kernel), ready_of (by decide +kernel)⟩

theorem witness_FloatResults : (st (onTile group0)).live ∧ (st (onTile group0)).part.Ready 0 0 [0, 1, 2] [1, 2] ∧
    (st (onTile group0)).part.Ready 0 0 [0, 1, 2, 3] [1, 2, 3] ∧ (st (onTile group0)).part.Ready 0 0 [0, 15] [15] ∧
    0x80000000 < (0x80000001 : W32).toNat ∧ (0xFF800000 : W32).toNat ≤ 0xFF800000 ∧ (0xFF800000 : W32).toNat % 2 ^ 31 = 0x7F800000 ∧
    0x47000000 < (0x47000001 : W32).toNat % 2 ^ 31 ∧ (0x7F7FFFFF : W32).toNat % 2 ^ 31 < 0x7F800000 ∧ 0x7F800000 < (0x7F800001 : W32).toNat % 2 ^ 31 :=
  ⟨live_onTile, ready_of (by decide +kernel), ready_of (by decide +kernel), ready_of (by decide +kernel), by decide⟩

theorem witness_ConversionResults : (st (onTile group0)).live ∧ (st (onTile group0)).part.Ready 0 0 [0, 1] [1] ∧ (st (onTile group0)).part.Ready 0 0 [] [] ∧
    cvtDefined .bf16 .fp32 .default = true ∧ cvtDefined .int4 .e4m3 .default = false :=
  ⟨live_onTile, ready_of (by decide +kernel), ready_of (by decide +kernel), by decide⟩

/-- Tile 0 runs kernel 0. -/
def kernel0 : Kernel := { fn := 1, p := launch0, issue := cmdT 0x0401 }
def onKernel (y : Group) : Part := ((onTile y).modTile 0 fun x => { x with work := .kernel 0 }).setKernel 0 (some kernel0)

theorem witness_SpecialValues : (st (onTile group0)).live ∧ (st (onTile group0)).part.Ready 0 0 [0] [] ∧ (st (onTile group0)).part.Ready 0 0 [] [] ∧
    ((onTile group0).tile 0).work = .step ∧ ((onKernel group0).tile 0).work = .kernel 0 ∧ (onKernel group0).kernel 0 = some kernel0 ∧
    (onKernel group0).canIssue 0 0 = true ∧ (onKernel group0).fetchFault 0 0 = none :=
  ⟨live_onTile, ready_of (by decide +kernel), ready_of (by decide +kernel), by decide +kernel⟩

/-! Results the manual states. -/

/-- R266: ties away from even do not exist; 464 lies halfway to infinity in E4M3 and saturates at 448 by default. -/
theorem test_cvt_e4m3_tie : cvt .e4m3 .fp32 .rn .default 0x43E80000 = 0x7E := by decide +kernel

theorem test_cvt_e5m2_tie : cvt .e5m2 .fp32 .rn .default 0x47700000 = 0x7C ∧ cvt .e5m2 .fp32 .rz .default 0x47700000 = 0x7B := by decide +kernel

/-! ## Paths, barriers, faults (03) -/

/-- Lane 0 holds 1 in register 2 and a code address in register 3; register 1 is 0 in every lane. -/
def group1 : Group := { group0 with regs := [(64, 1), (96, 0x2000)] }
/-- Two threads of four are active. -/
def group2 : Group := { group0 with live := 15, paths := [{ pc := 0x1000, mask := 3 }] }

def takenOf (y : Group) (c : Cond) (va vb : Nat) : LaneMask := maskOf fun l => y.act.getLsbD l && holds c (y.rg va l) (y.rg vb l)

theorem witness_BranchesMovePaths : (st (onTile group1)).live ∧ (onTile group1).Ready 0 0 [1, 2] [1, 2] ∧ (onTile group1).Ready 0 0 [] [] ∧
    (onTile group1).Ready 0 0 [3] [3] ∧ (onTile group1).Ready 0 0 [5] [] ∧
    takenOf group1 ⟨.s32, .ne⟩ 1 1 = 0 ∧ takenOf group1 ⟨.s32, .eq⟩ 1 1 = group1.act ∧ takenOf group1 ⟨.s32, .eq⟩ 1 2 ≠ 0 ∧
    takenOf group1 ⟨.s32, .eq⟩ 1 2 ≠ group1.act ∧ group1.cur < group1.paths.length ∧
    sortAsc (distinct ((lanesOf group1.act).map (group1.target 1))) = [0] ∧ sortAsc (distinct ((lanesOf group1.act).map (group1.target 3))) = [0, 0x2000] :=
  ⟨live_of (by decide +kernel), ready_of (by decide +kernel), ready_of (by decide +kernel), ready_of (by decide +kernel), ready_of (by decide +kernel),
    by decide +kernel⟩

theorem witness_PathsSplitAndRejoin : (st (onTile group1)).live ∧ ((onTile group1).group 0 0).paths = [{ pc := 0x1000, mask := -1 }] ∧
    ((onTile group1).group 0 0).cur = 0 ∧ (Instr.iadd 0 0 5 1 2).oneReg = some (0, 0, 5, [1, 2]) ∧ (onTile group1).Ready 0 0 [5, 1, 2] [1, 2] ∧
    (onTile group1).Ready 0 0 [] [] ∧ (onTile group1).Ready 0 0 [1, 2] [1, 2] ∧ ((onTile group1).group 0 0).splits = [] ∧
    takenOf group1 ⟨.s32, .eq⟩ 1 2 ≠ 0 ∧ takenOf group1 ⟨.s32, .eq⟩ 1 2 ≠ group1.act ∧ (0x2000 : Pc) ≠ 0x3000 ∧ (0x1000 : Pc) + 8 ≠ 0x3000 :=
  ⟨live_of (by decide +kernel), by decide +kernel, by decide +kernel, rfl, ready_of (by decide +kernel), ready_of (by decide +kernel),
    ready_of (by decide +kernel), by decide +kernel⟩

/-- Threads 0 and 1 were split, to meet at 0x3000. -/
def split0 (arrived : LaneMask) : Split := { id := 0, reconv := 0x3000, expected := 3, arrived, parent := none }
def pathAt (pc : Pc) (mask : LaneMask) : Path := { pc, mask, split := some 0 }

theorem witness_rejoin : (split0 0).parent = none ∧ (pathAt 0x2000 1).mask &&& (pathAt 0x3000 2).mask = 0 ∧
    (split0 0).expected = (pathAt 0x2000 1).mask ||| (pathAt 0x3000 2).mask ∧
    (({ paths := [pathAt 0x2000 1, pathAt 0x3000 2], cur := 1, splits := [split0 0] } : Group).settle 64).paths = [pathAt 0x2000 1] ∧
    (({ paths := [pathAt 0x3000 1], cur := 0, splits := [split0 2] } : Group).settle 64).paths.map (·.mask) = [3] := by decide +kernel

/-- A block of two groups; a group with a token in error. -/
def onTwo : Part := (onTile group0).setGroup 0 1 group0
def groupErr : Group := { group0 with tokens := [(0, { gen := 0, code := some 0x40 })] }

theorem witness_BarriersTrapsAndExit : (st (onTile group0)).live ∧ (onTile group0).Ready 0 0 [] [] ∧ (onTile group0).Ready 0 0 [1] [1] ∧
    ((onTile group0).group 0 0).tx = none ∧ ((onTile group0).group 0 0).act = ((onTile group0).group 0 0).live ∧
    (∀ g' ∈ ((onTile group0).tile 0).blockGroups 0, g' ≠ 0 → g' ∈ (((onTile group0).tile 0).block 0).arrived) ∧
    onTwo.Ready 0 0 [] [] ∧ (1 ∈ (onTwo.tile 0).blockGroups 0 ∧ 1 ∉ ((onTwo.tile 0).block 0).arrived) ∧
    (onTile group2).Ready 0 0 [] [] ∧ ((onTile group2).group 0 0).act ≠ ((onTile group2).group 0 0).live ∧
    ((onTile group2).group 0 0).live &&& ~~~((onTile group2).group 0 0).act ≠ 0 ∧
    ((onTile group0).group 0 0).outstanding = false ∧ ((onTile group0).group 0 0).firstError = none ∧ groupErr.outstanding = false ∧
    groupErr.firstError = some 0x40 ∧ (((onTile group0).tile 0).block 0).firstPc = none :=
  ⟨live_of (by decide +kernel), ready_of (by decide +kernel), ready_of (by decide +kernel), by decide +kernel, by decide +kernel, by decide +kernel,
    ready_of (by decide +kernel), by decide +kernel, ready_of (by decide +kernel), by decide +kernel⟩

/-- A group that waits at its block's barrier. -/
def onBarrier : Part := (onTile { group0 with wait := .barrier }).modTile 0 fun x =>
  { x with blocks := [(0, { used := true, base := 0x100, size := 0x1000, arrived := [0], firstPc := some 0x1000 })] }

theorem witness_BarrierTimeout : (!(st onBarrier).pins.inReset && !(st onBarrier).part.fatal) = true ∧ ((onBarrier.tile 0).block 0).firstPc = some 0x1000 ∧
    onBarrier.rd TL_EVENTS_FAULT 0 = 0 := by decide +kernel

/-- Code outside every window, outside the part, and a marked register. -/
def groupAt (pc : Pc) : Group := { group0 with paths := [{ pc, mask := -1 }] }
def groupMarked : Group := { group0 with marks := [(32, (.poison, 0x40))] }

theorem witness_IssueFaults : (Instr.iadd 0 0 5 1 2).oneReg = some (0, 0, 5, [1, 2]) ∧
    (onTile (groupAt 0x9000000000)).canIssue 0 0 = true ∧ ((onTile (groupAt 0x9000000000)).group 0 0).srcReady [1, 2] = true ∧
    (onTile (groupAt 0x9000000000)).hasHome 0x9000000000 = false ∧
    (onTile (groupAt 0x100000000)).canIssue 0 0 = true ∧ (onTile (groupAt 0x100000000)).hasHome 0x100000000 = true ∧
    (onTile (groupAt 0x100000000)).granted 0 0x100000000 1 false = false ∧
    (onTile group0).canIssue 0 0 = true ∧ (onTile group0).fetchFault 0 0 = none ∧ ((onTile group0).group 0 0).nReg ≤ 16 ∧
    (onTile groupMarked).fetchFault 0 0 = none ∧ (groupMarked.markFault [1, 2]).map (fun f => (f.code, f.addr)) = some (0x0A, 0x40) := by decide +kernel

/-! ## Memory instructions and the matrix unit (04, 07, 08, 09) -/

/-- Lane 0 holds a misaligned offset in register 5, the address 4 GiB in registers 6 and 7, and an address of control space in 8 and 9. -/
def groupA : Group := { group0 with regs := [(160, 2), (224, 1), (256, 0x18), (288, 0xFF00)], live := 1, paths := [{ pc := 0x1000, mask := 1 }] }

theorem witness_ScratchpadLoadsAndStores : (st (onTile groupA)).live ∧ sizeOk 4 false = true ∧ sizeOk 16 false = true ∧ sizeOk 2 true = true ∧
    (onTile groupA).Ready 0 0 (1 :: dataRegs 10 16) [1] ∧ (onTile groupA).checkScratch 0 0 16 1 = none ∧
    ((onTile groupA).checkScratch 0 0 4 5).map (·.code) = some 0x03 ∧ (onTile groupA).Ready 0 0 (5 :: dataRegs 10 4) [5] ∧
    (onTile groupA).Ready 0 0 (1 :: dataRegs 10 16) (1 :: dataRegs 10 16) ∧ (onTile groupA).Ready 0 0 [] [] ∧ sizeOk 3 false = false ∧ sizeOk 4 true = false :=
  ⟨live_of (by decide +kernel), by decide, by decide, by decide, ready_of (by decide +kernel), by decide +kernel, by decide +kernel,
    ready_of (by decide +kernel), ready_of (by decide +kernel), ready_of (by decide +kernel), by decide⟩

theorem witness_LoadsIssue : (st (onTile groupA)).live ∧ (onTile groupA).Ready 0 0 ([1, 2] ++ dataRegs 10 4) [1, 2] ∧
    (onTile groupA).loadBlocked 0 ((onTile groupA).places 0 0 1) 4 = false ∧ (onTile groupA).checkLanes 0 0 .load 4 1 = none ∧
    ((onTile groupA).group 0 0).tx = none ∧ controlLanes ((onTile groupA).places 0 0 1) = [] ∧
    (onTile groupA).loadBlocked 0 ((onTile groupA).places 0 0 6) 4 = false ∧
    ((onTile groupA).checkLanes 0 0 .load 4 6).map (·.code) = some 0x05 ∧ (onTile groupA).Ready 0 0 ([6, 7] ++ dataRegs 10 4) [6, 7] :=
  ⟨live_of (by decide +kernel), ready_of (by decide +kernel), by decide +kernel, by decide +kernel, by decide +kernel, by decide +kernel,
    by decide +kernel, by decide +kernel, ready_of (by decide +kernel)⟩

theorem witness_StoresEnterStoreBuffer : (st (onTile groupA)).live ∧ (onTile groupA).Ready 0 0 ([1, 2] ++ dataRegs 10 8) ([1, 2] ++ dataRegs 10 8) ∧
    ((onTile groupA).tile 0).sbRoom (sectorsOf ((onTile groupA).places 0 0 1)).length = true ∧ (onTile groupA).checkLanes 0 0 .store 8 1 = none ∧
    controlLanes ((onTile groupA).places 0 0 1) = [] ∧ ((onTile groupA).checkLanes 0 0 .store 8 6).map (·.code) = some 0x05 ∧
    (onTile groupA).Ready 0 0 ([6, 7] ++ dataRegs 10 8) ([6, 7] ++ dataRegs 10 8) :=
  ⟨live_of (by decide +kernel), ready_of (by decide +kernel), by decide +kernel, by decide +kernel, by decide +kernel, by decide +kernel,
    ready_of (by decide +kernel)⟩

theorem witness_AtomicsIssue : (st (onTile groupA)).live ∧ (onTile groupA).sbFree 0 ((onTile groupA).places 0 0 1) = true ∧
    (onTile groupA).checkLanes 0 0 .atomic (atomSize .i32) 1 = none ∧ (onTile groupA).checkLanes 0 0 .atomic (atomSize .b64) 1 = none ∧
    atomDefined .add .i32 = true ∧ atomDefined .swap .f32 = false ∧
    readyB (onTile groupA) 0 0 ([1, 2] ++ elemRegs 4 4 ++ dataRegs 10 4) ([1, 2] ++ elemRegs 4 4) = true ∧
    readyB (onTile groupA) 0 0 ([1, 2] ++ (elemRegs 4 8 ++ elemRegs 6 8) ++ dataRegs 10 8) ([1, 2] ++ (elemRegs 4 8 ++ elemRegs 6 8)) = true ∧
    readyB (onTile groupA) 0 0 ([1, 2] ++ [] ++ dataRegs 10 8) ([1, 2] ++ []) = true ∧ ((onTile groupA).tile 0).sbRoom 2 = true ∧
    readyB (onTile groupA) 0 0 [1, 2, 3] [1, 2, 3] = true ∧ (groupA.pair 1 groupA.lowLane).toNat % 128 = 0 ∧
    (onTile groupA).laneCheck 0 0 .atomic 128 (groupA.pair 1 groupA.lowLane) = 0 ∧ (onTile groupA).place (groupA.pair 1 groupA.lowLane) = .mem none 0 :=
  ⟨live_of (by decide +kernel), by decide +kernel⟩

/-- Two tokens: record 0 outstanding, record 1 posted without error, record 2 in error; registers 1, 2 and 3 name them, register 4 none. -/
def groupT : Group :=
  { group0 with tokens := [(0, { gen := 5 }), (1, { gen := 6, code := some 0 }), (2, { gen := 7, code := some 0x40 })],
                regs := [(32, tokenWord 0 0 5), (64, tokenWord 0 1 6), (96, tokenWord 0 2 7)], tokenGen := 8, live := 1, paths := [{ pc := 0x1000, mask := 1 }] }
def groupFull : Group := { groupT with tokens := groupT.tokens ++ [(3, { gen := 4 })] }

theorem witness_MatrixIssueAndWait : (st (onTile groupT)).live ∧ readyB (onTile groupT) 0 0 [9, 8] [8] = true ∧ ((onTile groupT).tile 0).ops.length < 4 ∧
    ((onTile groupT).group 0 0).freeRecord = some 3 ∧ ((onTile groupT).group 0 0).tx = none ∧ ((onTile groupFull).group 0 0).freeRecord = none ∧
    readyB (onTile groupFull) 0 0 [9, 8] [8] = true ∧
    readyB (onTile groupT) 0 0 [1] [1] = true ∧ groupT.tokenOf 0 (groupT.rg 4 0) = none ∧ groupT.tokenOf 0 (groupT.rg 1 0) = some (0, { gen := 5 }) ∧
    groupT.tokenOf 0 (groupT.rg 2 0) = some (1, { gen := 6, code := some 0 }) ∧ groupT.tokenOf 0 (groupT.rg 3 0) = some (2, { gen := 7, code := some 0x40 }) ∧
    readyB (onTile groupT) 0 0 [3, 9] [3] = true ∧ groupErr.outstanding = false ∧ groupErr.firstError = some 0x40 ∧ group0.firstError = none ∧
    group0.outstanding = false :=
  ⟨live_of (by decide +kernel), by decide +kernel⟩

/-- A descriptor of INT8 operands in the local array, M = N = 1, K = 32; `sparse` with metadata that is not valid. -/
def desc8 (sparse : Bool) : List Byte :=
  (List.range 128).map fun i => if i = 2 then 1 else if i = 0x26 || i = 0x56 then (if sparse then 1 else 3) else if i = 6 && sparse then 4 else 0
def op8 (stage : MmaStage) (sparse : Bool := false) : MmaOp := { group := 0, record := 0, gen := 5, desc := desc8 sparse, stage }
def onOps (l : List MmaOp) : Part := (onTile groupT).modTile 0 fun x => { x with ops := l }

theorem witness_MatrixOperationStages : ((onOps [op8 .issued]).tile 0).ops = [] ++ op8 .issued :: [] ∧ (onOps [op8 .issued]).descCode 0 (op8 .issued) [] = 0 ∧
    (onOps []).descCode 0 { op8 .issued with base := 64 } [] = 0x40 ∧ (decDesc (desc8 false)).a.src = 0 ∧ (decDesc (desc8 false)).b.src = 0 ∧
    (onOps [op8 .copied]).metaOk 0 (decDesc (desc8 false)) = true ∧ (onOps [op8 .copied]).metaOk 0 (decDesc (desc8 true)) = false ∧
    (op8 .copied).mapReads = [] ∧ (part0.readSector 0x40).2.2 = none ∧ ({ op8 .copied with mapReads := [(true, 0x40)] } : MmaOp).mapReads = (true, 0x40) :: [] ∧
    ({ op8 .translated with toStage := [(false, 0), (false, 1)] } : MmaOp).toStage = (false, 0) :: [(false, 1)] ∧
    (part0.readSector ((op8 .translated).addr (decDesc (desc8 false)) false 0)).2.2 = none ∧ (op8 .staged).stage = .staged := by decide +kernel

theorem witness_MatrixOperations : (!(st (onOps [op8 .running])).pins.inReset && !(onOps [op8 .running]).fatal) = true ∧
    ((onOps [op8 .running]).tile 0).ops = op8 .running :: [] ∧ ((onOps [op8 .running]).group 0 0).token 0 = some { gen := 5 } ∧
    (decDesc (desc8 false)).accCol + (decDesc (desc8 false)).n ≤ 128 ∧ ((onOps [op8 .done]).tile 0).ops = op8 .done :: [] := by decide +kernel

/-- Register 5 of lane 0 names no accumulator element. -/
def groupC : Group := { groupA with regs := [(160, 0x4000), (256, 0x01000020), (288, 0xFF00)] }

/-- Tiles may read and write every block of control space. -/
def openCs : Part := ((onTile groupC).wr HUSK_TILE_CS_READ 0x1FFF).wr HUSK_TILE_CS_WRITE 0x1FFF

theorem witness_AccumulatorAndHintInstructions : (st (onTile groupC)).live ∧ (onTile groupC).accFree 0 0 1 = true ∧ readyB (onTile groupC) 0 0 [10, 1] [1] = true ∧
    (onTile groupC).accFault 0 0 1 = none ∧ ((onTile groupC).accFault 0 0 5).map (·.addr) = some 0x4000 ∧ (onTile groupC).accFree 0 0 5 = true ∧
    readyB (onTile groupC) 0 0 [1, 10] [1, 10] = true ∧ readyB (onTile groupC) 0 0 [1, 2] [1, 2] = true ∧
    ((onTile groupC).tile 0).sbRoom (memLines ((onTile groupC).places 0 0 1)).length = true ∧ (onTile groupC).checkLanes 0 0 .discard 256 1 = none ∧
    (onTile groupC).places 0 0 8 = [(0, .control 0x01000020)] ∧
    readyB (onTile groupC) 0 0 ([8, 9] ++ dataRegs 10 4) ([8, 9] ++ dataRegs 10 4) = true ∧ openCs.checkLanes 0 0 .load 4 8 = none ∧
    openCs.checkLanes 0 0 .store 4 8 = none ∧ (openCs.csRead 0x01000020 4).isSome = true ∧ (openCs.csWrite 0x01000020 4 7).isSome = true :=
  ⟨live_of (by decide +kernel), by decide +kernel⟩

/-! ## Streams, gates, transactions, fences (06, 07, 09, 10) -/

/-- Lane 0 holds 8 in register 5 and 2^20 in register 6. -/
def groupM : Group := { group0 with regs := [(160, 8), (192, 0x100000)], live := 1, paths := [{ pc := 0x1000, mask := 1 }] }

theorem witness_MeshStreamsAndCounters : (st (onTile groupM)).live ∧ (onTile groupM).tileStep 0 = true ∧ ((onTile groupM).group 0 0).tx = none ∧
    readyB (onTile groupM) 0 0 [1] [1] = true ∧ (onTile groupM).readyFree 0 = true ∧ groupM.offset 1 groupM.lowLane % 16 = 0 ∧
    groupM.offset 1 groupM.lowLane + 16 ≤ (onTile groupM).scratch 0 ∧
    (decStream (((onTile groupM).tile 0).arrBytes 0 16) ((onTile groupM).scratch 0)).isSome = true ∧
    decStream (List.replicate 16 1) ((onTile groupM).scratch 0) = none ∧ (onTile groupM).rd TL_MESH_FAULT_VALID 0 = 0 ∧
    groupM.offset 5 groupM.lowLane % 16 ≠ 0 ∧ readyB (onTile groupM) 0 0 [5] [5] = true ∧ readyB (onTile groupM) 0 0 [] [] = true ∧
    ctrDefined .inj 0 = true ∧ readyB (onTile groupM) 0 0 [9] [] = true ∧ 0 ≤ ((onTile groupM).tile 0).counterMax .inj 0 ∧
    ((onTile groupM).tile 0).counterMax .inj 0 < (groupM.rg 6 0).toNat ∧ readyB (onTile groupM) 0 0 [1, 5] [1, 5] = true ∧
    (onKernel groupM).tileStep 0 = false :=
  ⟨live_of (by decide +kernel), by decide +kernel⟩

/-- A table that holds `z` under each key of a list. -/
theorem mget_all {α : Type} (d z : α) (l : List Nat) (n : Nat) (h : n ∈ l) : mget d (l.map fun i => (i, z)) n = z := by
  induction l with
  | nil => cases h
  | cons i l ih =>
    simp only [List.map_cons, mget]
    split
    · rfl
    · rename_i hn
      rcases List.mem_cons.1 h with e | e
      · exact absurd e.symm hn
      · exact ih e

/-- The table of `n` entries that are all `z`. -/
@[irreducible] def every {α : Type} (n : Nat) (z : α) : List (Nat × α) := (List.range n).map fun i => (i, z)

theorem mget_every {α : Type} (d z : α) (n i : Nat) (h : i < n) : mget d (every n z) i = z := by
  unfold every
  exact mget_all d z _ i (List.mem_range.2 h)

/-- Every router is at a gate; router 0 alone runs a ROUTE slot, and one before a GATE and an END slot. -/
def atGate : Part := { part0 with routers := every 3072 { state := .gate }, step := { running := true, started := true } }
def route0 : Router := { bank := [0, 1, 3], state := .running, cur := some 0, left := 1 }

theorem witness_GatesAndRouterSlots : (st atGate).live ∧ atGate.gateReady = true ∧
    (({ part0 with step := { opening := true } } : Part).flits = [] ∧ mwf {} ({ part0 with step := { opening := true } } : Part).routers = true) ∧
    ((part0.setRouter 0 route0).router 0).state = .running ∧ (part0.setRouter 0 route0).fedBy 0 = true ∧ route0.cur = some 0 ∧
    slotKind (route0.bank.getD 1 3) = 1 ∧ slotKind (route0.bank.getD 2 3) = 3 := by
  refine ⟨live_of (by decide +kernel), ?_, by decide +kernel⟩
  have h : atGate.routersAtGate = true := by
    unfold Part.routersAtGate
    rw [List.all_eq_true]
    intro t ht
    have : atGate.router t = { state := .gate } := mget_every _ _ _ _ (List.mem_range.1 ht)
    simp [this]
  have h1 : atGate.step.running = true := rfl
  have h2 : atGate.step.opening = false := rfl
  have h3 : atGate.stepPods = [] := rfl
  have h4 : atGate.step.started = true := rfl
  have h5 : atGate.step.complete = false := rfl
  simp [Part.gateReady, h, h1, h2, h3, h4, h5]

/-- A transaction of all threads; one that has claimed a line; one with a notice. -/
def tx0 : Tx := { target := 0x2000, mask := -1, vd := 9 }
def txLine : Tx := { tx0 with lines := [(0x1000, true, true)], buf := [(0x1000, 7)], commit := true }
def withTx (x : Tx) : Part := onTile { group0 with tx := some x }

theorem witness_TransactionsAtTheTile : (st (onTile group0)).live ∧ readyB (onTile group0) 0 0 [9] [] = true ∧ ((onTile group0).tile 0).openTx < 4 ∧
    ((onTile group0).group 0 0).tx = none ∧ ((withTx tx0).group 0 0).tx = some tx0 ∧ readyB (withTx tx0) 0 0 [9] [] = true ∧
    readyB (withTx tx0) 0 0 [] [] = true ∧ ((withTx tx0).group 0 0).act = tx0.mask ∧ tx0.lines = [] ∧
    readyB (withTx { txLine with commit := false }) 0 0 [] [] = true ∧ ((withTx txLine).group 0 0).act = txLine.mask ∧ txLine.lines ≠ [] ∧
    readyB (withTx { tx0 with mask := 1 }) 0 0 [] [] = true ∧ ((withTx { tx0 with mask := 1 }).group 0 0).act ≠ 1 ∧
    ((withTx { tx0 with notice := some (1, 0x1000) }).group 0 0).tx = some { tx0 with notice := some (1, 0x1000) } ∧
    ((withTx { tx0 with notice := some (1, 0x1000) }).group 0 0).atBoundary = true ∧ tx0.commit = false :=
  ⟨live_of (by decide +kernel), by decide +kernel⟩

/-- A group in a release of a fence, nothing of it outstanding; the same with a write-back numbered; one that waits for device 1. -/
def rel0 (wb : Option Nat) (op : RelOp) : RelWait := { op, since := 4, pc := 0x1000, mask := -1, wb }
def inRel (wb : Option Nat) (op : RelOp) (u : List Unacked) : Part :=
  (onTile { group0 with wait := .release (rel0 wb op) }).modTile 0 fun x => { x with unacked := u }
def unacked1 : List Unacked := [{ dev := 1, seq := 0, id := 0, group := 0, sid := 0 }]

theorem witness_FencesAcquiresAndReleases : (st (onTile group0)).live ∧ readyB (onTile group0) 0 0 [] [] = true ∧ readyB (onTile group0) 0 0 [9] [] = true ∧
    ((onTile { group0 with wait := .acquire }).group 0 0).wait = .acquire ∧ (∀ x ∈ (onTile { group0 with wait := .acquire }).net, x.acq = false) ∧
    ((inRel none (.fence 9 false) []).group 0 0).wait = .release (rel0 none (.fence 9 false)) ∧
    (inRel none (.fence 9 false) []).relDrained 0 0 (rel0 none (.fence 9 false)) = true ∧
    (inRel (some 6) (.fence 9 true) []).relDrained 0 0 (rel0 (some 6) (.fence 9 true)) = true ∧ (inRel (some 6) (.fence 9 true) []).wbDone 0 6 = true ∧
    (((inRel none (.fence 9 false) unacked1).tile 0).relUnacked (rel0 none (.fence 9 false))).isEmpty = false ∧
    (((inRel none (.store [2]) unacked1).tile 0).relUnacked (rel0 none (.store [2]))).isEmpty = false ∧ part0.rd TL_EVENTS_FAULT 0 = 0 ∧
    ((onTile group0).tile 0).dirtySectors = [] ∧ (onTile group0).pendingOf 0 0 = false ∧ ((onTile group0).tile 0).sb = [] ∧
    ((onTile group0).tile 0).unacked = [] ∧ (onTile group0).wbDone 0 (onTile group0).nextId = true :=
  ⟨live_of (by decide +kernel), by decide +kernel⟩

/-! ## Slices (08, 09) -/

/-- Every slice is `z`; the requests in flight are `l`. -/
def sliced (z : Slice) (l : List Req) : Part := { part0 with slices := every 256 z, net := l, nextId := 8 }
theorem slice_sliced (z : Slice) (l : List Req) (a : Nat) : (sliced z l).slice ((sliced z l).served a) = z :=
  by
  show mget ({} : Slice) (every 256 z) ((sliced z l).served a) = z
  exact mget_every _ z 256 _ (Part.served_lt _ a)

/-- Way 0 of set 0 holds line 0x1000 whole; group 0 of tile 0 has reserved it. -/
def slice1 : Slice :=
  { ways := [(0, { kind := .line, line := 0x1000, valid := 15 })], rsvs := [{ tile := 0, group := 0, line := 0x1000, set := 0 }] }
def rq (k : ReqKind) : Req := { id := 7, tile := 0, group := 0, kind := k, sector := 0x1000 }
/-- One lane at the sector's start. -/
def lane1 : LaneAcc := { lane := 0, addr := 0x1000, reg := 9, val := 5 }

theorem resident1 (l : List Req) : (sliced slice1 l).Resident ((sliced slice1 l).served 0x1000) 0x1000 0x1000 := by
  refine ⟨rfl, .inr ⟨0, ?_⟩⟩
  rw [slice_sliced]
  decide
theorem plain1 (z : Slice) (l : List Req) : (sliced z l).Plain 0x1000 :=
  ⟨rfl, rfl, rfl, fun h => absurd (show (sliced z l).inPin 0x1000 = false from rfl) (by rw [h]; decide)⟩
theorem arrives1 (z : Slice) (k : ReqKind) : (sliced z [rq k]).Arrives 7 (rq k) := ⟨rfl, rfl, rfl, by simp [Part.inOrder, Part.ahead, sliced, rq]⟩
/-- Only registers decide that a part is live. -/
theorem live_ctl {q : Part} (h : q.ctl = part0.ctl) : (st q).live := by
  have h0 : part0.fatal = false := by decide +kernel
  refine ⟨rfl, ?_⟩
  show q.fatal = false
  unfold Part.fatal Part.rd Part.reg at *
  rw [h]
  exact h0
theorem live_sliced (z : Slice) (l : List Req) : (st (sliced z l)).live := live_ctl rfl

theorem witness_SliceReadsAndWrites : (st (sliced slice1 [rq (.load 4 false false)])).live ∧
    (sliced slice1 [rq (.load 4 false false)]).Arrives 7 (rq (.load 4 false false)) ∧
    (sliced slice1 [rq (.load 4 false false)]).Resident ((sliced slice1 [rq (.load 4 false false)]).served 0x1000) 0x1000 0x1000 ∧
    (sliced slice1 [rq (.load 4 false false)]).isDead ((sliced slice1 [rq (.load 4 false false)]).phys 0x1000) = false ∧
    ({ sliced {} [] with dead := [0x1000] } : Part).isDead (({ sliced {} [] with dead := [0x1000] } : Part).phys 0x1000) = true ∧
    ({ sliced {} [] with dead := [0x1000] } : Part).pinLost 0x1000 = false ∧
    (sliced {} [rq (.load 4 false false)]).hit ((sliced {} [rq (.load 4 false false)]).served 0x1000) 0x1000 = false ∧
    (sliced slice1 [rq (.store [(0x1000, 1)])]).leasedByOther ((sliced slice1 [rq (.store [(0x1000, 1)])]).served 0x1000) (rq (.store [(0x1000, 1)])) = false ∧
    (sliced slice1 [rq (.store [(0x1000, 1)])]).Plain 0x1000 ∧ (sliced {} [rq (.store [(0x1000, 1)])]).inPin 0x1000 = false ∧
    ((sliced {} [rq (.store [(0x1000, 1)])]).slice ((sliced {} [rq (.store [(0x1000, 1)])]).served 0x1000)).find 0x1000 = none ∧
    (sliced slice1 [rq .discard]).Arrives 7 (rq .discard) ∧ inCtl 0x1000 = false ∧
    ((sliced slice1 [rq .discard]).slice ((sliced slice1 [rq .discard]).served 0x1000)).entries = [] ∧
    ((sliced slice1 [rq .discard]).slice ((sliced slice1 [rq .discard]).served 0x1000)).pins = [] ∧ (sliced slice1 [rq .hint]).Arrives 7 (rq .hint) := by
  refine ⟨live_sliced _ _, arrives1 _ _, resident1 _, rfl, by decide +kernel, by decide +kernel, ?_, ?_, plain1 _ _, rfl, ?_, arrives1 _ _, rfl, ?_, ?_,
    arrives1 _ _⟩
  · unfold Part.hit; rw [slice_sliced]; rfl
  · unfold Part.leasedByOther; rw [slice_sliced]; rfl
  all_goals rw [slice_sliced]; rfl

/-- The atomic of the request at the front of its pin. -/
def atom1 (ret : Bool) : ReqKind := .atomic .add .i32 false ret
def rqLane (k : ReqKind) : Req := { rq k with lanes := [lane1] }
def slicePin : Slice := { slice1 with pins := [{ line := 0x1000, set := 0, way := 0, queue := [7] }] }

theorem witness_SliceAtomicsAndReservations : (st (sliced slice1 [rqLane (atom1 true)])).live ∧
    (sliced slice1 [rqLane (atom1 true)]).Arrives 7 (rqLane (atom1 true)) ∧ (sliced slice1 [rqLane (atom1 true)]).Plain 0x1000 ∧
    (sliced slice1 [rqLane (atom1 true)]).Resident ((sliced slice1 [rqLane (atom1 true)]).served 0x1000) 0x1000 0x1000 ∧
    ((sliced slice1 [rqLane (atom1 true)]).slice ((sliced slice1 [rqLane (atom1 true)]).served 0x1000)).pins = [] ∧
    (∃ e ∈ ((sliced slicePin [rqLane (atom1 true)]).slice ((sliced slicePin [rqLane (atom1 true)]).served 0x1000)).pins, e.line = 0x1000 ∧ e.queue.head? = some 7) ∧
    (sliced slicePin [rqLane (atom1 true)]).poisoned 0x1000 = false ∧
    ({ sliced slicePin [rqLane (atom1 false)] with poison := [0x1000] } : Part).poisoned 0x1000 = true ∧ lane1.addr % 64 + atomSize .i32 ≤ 64 ∧
    (sliced slice1 [rqLane (.ldrsv true true)]).Arrives 7 (rqLane (.ldrsv true true)) ∧
    (sliced slice1 [rqLane (.stcnd true)]).Arrives 7 (rqLane (.stcnd true)) ∧
    (∃ v ∈ ((sliced slice1 [rqLane (.stcnd true)]).slice ((sliced slice1 [rqLane (.stcnd true)]).served 0x1000)).rsvs, v.tile = 0 ∧ v.group = 0 ∧ v.line = 0x1000) ∧
    ((sliced { slice1 with rsvs := [] } [rqLane (.stcnd true)]).slice ((sliced { slice1 with rsvs := [] } [rqLane (.stcnd true)]).served 0x1000)).rsvs = [] := by
  refine ⟨live_sliced _ _, ⟨rfl, rfl, rfl, rfl⟩, plain1 _ _, resident1 _, ?_, ?_, rfl, rfl, by decide, ⟨rfl, rfl, rfl, rfl⟩, ⟨rfl, rfl, rfl, rfl⟩, ?_, ?_⟩
  all_goals rw [slice_sliced]
  · rfl
  · exact ⟨_, List.mem_cons_self, rfl, rfl⟩
  · exact ⟨_, List.mem_cons_self, rfl, rfl, rfl⟩

/-- A miss entry of line 0x1000 with one reader; requests on each waiting list; a window that is being destroyed. -/
def entry1 : MissEntry := { line := 0x1000, set := 0, way := 1, win := 0, waiters := [7] }
def clean1 : Clean := { token := 3, kind := .destroy 0, issue := none }

theorem witness_FillsWaitsCleansAndTagLoss : (st (sliced { slice1 with entries := [entry1] } [rq (.load 4 false false)])).live ∧
    ((sliced { slice1 with entries := [entry1] } [rq (.load 4 false false)]).slice
      ((sliced { slice1 with entries := [entry1] } [rq (.load 4 false false)]).served 0x1000)).entries.find? (fun f => f.line = 0x1000) = some entry1 ∧
    entry1.waiters = [7] ∧ entry1.way < 16 ∧ (sliced slice1 [rq (.load 4 false false)]).req 7 = some (rq (.load 4 false false)) ∧
    (sliced slice1 [rq (.load 4 false false)]).Resident ((sliced slice1 [rq (.load 4 false false)]).served 0x1000) 0x1000 0x1000 ∧
    (∀ z ∈ [({ slice1 with waitWay := [7] } : Slice), { slice1 with waitEntry := [7] }, { slice1 with waitPin := [7] }],
      (sliced z [rq (atom1 true)]).slice ((sliced z [rq (atom1 true)]).served 0x1000) = z) ∧
    ({ sliced {} [] with cleans := [clean1] } : Part).cleans.find? (fun c => c.token = clean1.token) = some clean1 ∧
    ({ sliced {} [] with cleans := [clean1] } : Part).accessLeft 0 = false ∧
    (∀ i, i < 256 → ({ sliced {} [] with cleans := [clean1] } : Part).cleanHeld i (fun _ n => n = 0) = false) ∧
    ((part0.slice 0).way 0 0).kind ≠ .off ∧ part0.rd LLC_STATUS_STATE 0 ≠ 2 := by
  refine ⟨live_sliced _ _, ?_, rfl, by decide, rfl, resident1 _, fun z _ => slice_sliced _ _ _, by decide +kernel, by decide +kernel, ?_, by decide +kernel,
    by decide +kernel⟩
  · rw [slice_sliced]; rfl
  · intro i hi
    have : ({ sliced {} [] with cleans := [clean1] } : Part).slice i = {} := by
      show mget ({} : Slice) (every 256 {}) i = {}
      exact mget_every _ _ 256 i hi
    simp [Part.cleanHeld, this]

/-- Claims of line 0x1000: by another group, by this one. -/
def claimOf (g : Nat) (w : Bool) : Claim := { tile := 0, group := g, line := 0x1000, set := 0, write := w }
def claiming (z : Slice) (x : Tx) : Part := (sliced z [rq (.claim true)]).setTile 0 ((withTx x).tile 0)

theorem slice_claiming (z : Slice) (x : Tx) (a : Nat) : (claiming z x).slice ((claiming z x).served a) = z := by
  show mget ({} : Slice) (every 256 z) ((claiming z x).served a) = z
  exact mget_every _ z 256 _ (Part.served_lt _ a)

theorem witness_ClaimsAndCommits : (st (sliced slice1 [rq (.claim true)])).live ∧ (claiming slice1 tx0).Arrives 7 (rq (.claim true)) ∧
    ((claiming slice1 tx0).group 0 0).tx = some tx0 ∧ tx0.notice = none ∧
    (distinct (((claiming { slice1 with claims := [claimOf 1 true] } tx0).slice
      ((claiming { slice1 with claims := [claimOf 1 true] } tx0).served 0x1000)).claims.map fun c => 16 * c.tile + c.group)).length < 32 ∧
    (∃ c ∈ ((claiming { slice1 with claims := [claimOf 1 true] } tx0).slice
      ((claiming { slice1 with claims := [claimOf 1 true] } tx0).served 0x1000)).claims, c.group ≠ 0 ∧ c.line = 0x1000 ∧ c.write = true) ∧
    (∃ a ∈ ({ claiming slice1 tx0 with poison := [0x1040] } : Part).poison, lineOf a = 0x1000) ∧
    (∃ w, ((claiming { slice1 with claims := [claimOf 0 false] } tx0).slice ((claiming { slice1 with claims := [claimOf 0 false] } tx0).served 0x1000)).find 0x1000 =
      some w ∧ w = 0) ∧
    0x1000 ∈ ((claiming { slice1 with claims := [claimOf 0 false] } tx0).slice
      ((claiming { slice1 with claims := [claimOf 0 false] } tx0).served 0x1000)).heldLines 0 ∧
    ((claiming slice1 txLine).group 0 0).tx = some txLine ∧ txLine.commit = true ∧ txLine.notice = none ∧ txLine.lines ≠ [] ∧
    (∀ c ∈ txLine.lines, c.2.2 = true) ∧ (claiming slice1 txLine).Plain 0x1000 ∧
    (((claiming slice1 txLine).slice ((claiming slice1 txLine).served 0x1000)).find 0x1000).isSome = true := by
  refine ⟨live_sliced _ _, ⟨rfl, rfl, rfl, rfl⟩, by decide +kernel, rfl, ?_, ?_, ⟨0x1040, by decide, by decide⟩, ?_, ?_, by decide +kernel, rfl, rfl, by decide,
    by decide, ⟨rfl, rfl, rfl, fun h => absurd (show (claiming slice1 txLine).inPin 0x1000 = false from rfl) (by rw [h]; decide)⟩, ?_⟩
  all_goals rw [slice_claiming]
  · decide
  · exact ⟨_, List.mem_cons_self, by decide⟩
  · exact ⟨0, by decide, rfl⟩
  · decide
  · decide

/-! ## Load data, kernels, tile errors, weight channels (03, 07, 10, 12, 18) -/

/-- A request that group 0 waits for in register 9 of lane 0, with a mark or without, local or to device 1. -/
def loaded (m : Option RegMark) (d : Option Nat) (st : ReqState) : Req :=
  { rqLane (.load 4 false false) with state := st, mark := m, dev := d, data := List.replicate 64 3 }
def awaiting (m : Option RegMark) (d : Option Nat) (st : ReqState) : Part :=
  { onTile { group0 with pend := [(288, 7)] } with net := [loaded m d st], nextId := 8 }

/-- A store-buffer entry of tile 0, in L1 or not. -/
def sb0 : SbEntry := { id := 3, group := 0, kind := .store, sector := 0x1000, bytes := [(0, 5)] }
def draining (l1 : SMap L1Line) : Part := (onTile group0).modTile 0 fun x => { x with sb := [sb0], l1 := l1 }

theorem witness_LoadDataAndStoreBufferDrain : (st (awaiting none none .performed)).live ∧
    (awaiting none none .performed).req 7 = some (loaded none none .performed) ∧ (loaded none none .performed).kind = .load 4 false false ∧
    (∀ c ∈ (loaded none none .performed).lanes, c.lane < 32) ∧
    (∀ c ∈ (loaded none none .performed).lanes, ∀ c' ∈ (loaded none none .performed).lanes, c'.lane = c.lane → c' = c) ∧
    ((awaiting none none .performed).group 0 0).awaits 9 0 7 = true ∧ ((awaiting none none .performed).group 0 0).awaits 9 1 7 = false ∧
    (awaiting (some .deadRead) none .performed).req 7 = some (loaded (some .deadRead) none .performed) ∧
    ((awaiting (some .deadRead) none .performed).group 0 0).awaits 9 0 7 = true ∧
    (draining []).nextDrain [] ((draining []).tile 0).sb = some sb0 ∧ sb0.dev = none ∧ sb0.kind = .store ∧ sb0.marked = false ∧
    ((draining []).cacheable 0 sb0.sector && ((draining []).tile 0).l1Valid sb0.sector) = false :=
  ⟨live_of (by decide +kernel), by decide +kernel⟩

/-- A tile of kernel 0 that has started no block; one that has started its block, which is over; an idle tile, with or without a store; a draining one. -/
def fresh0 : Part := (part0.setTile 0 { work := .kernel 0 }).setKernel 0 (some kernel0)
def over0 : Part := (part0.setTile 0 { work := .kernel 0, nextPos := 1 }).setKernel 0 (some kernel0)
def idle0 (sb : List SbEntry) (g : Bool) : Part := part0.setTile 0 { sb := sb, gating := g }

theorem witness_KernelsOnTheirTiles : (st fresh0).live ∧ fresh0.blockReady 0 = some (0, kernel0, 0) ∧ (∃ c, c < 8 ∧ ((fresh0.tile 0).block c).used = false) ∧
    kernel0.p.groups ≤ ((List.range 16).filter fun c => ((fresh0.tile 0).group c).live = 0).length ∧
    (over0.tile 0).work = .kernel 0 ∧ over0.kernel 0 = some kernel0 ∧ (over0.tile 0).stopping = false ∧ (over0.tile 0).faulted = false ∧
    kernel0.killed = false ∧ over0.blocksOver 0 kernel0 = true ∧ (over0.tile 0).live = [] ∧ (over0.tile 0).sb = [] ∧ (over0.tile 0).dirtySectors = [] ∧
    (over0.tile 0).unacked = [] ∧ over0.wbDone 0 over0.nextId = true ∧ ((idle0 [] false).tile 0).vacant = true ∧ ((idle0 [] false).tile 0).sb = [] ∧
    ((idle0 [sb0] false).tile 0).vacant = true ∧ ((idle0 [sb0] false).tile 0).sb ≠ [] ∧ ((idle0 [sb0] true).tile 0).gating = true ∧
    ((idle0 [sb0] true).tile 0).sb ≠ [] :=
  ⟨live_of (by decide +kernel), by decide +kernel, ⟨0, by decide, by decide +kernel⟩, by decide +kernel⟩

theorem witness_TileErrorsAndSelfTest : (st (onTile group0)).live ∧ ((onTile group0).tile 0).inReset = false ∧ ((onTile group0).tile 0).gated = false ∧
    part0.rd TL_EVENTS_FAULT 0 = 0 ∧ ((part0.setTile 0 { testing := true }).tile 0).testing = true ∧
    ((part0.setTile 0 { testing := true }).tile 0).swapped = false ∧ ((part0.setTile 0 { testing := true }).tile 0).repeated = false ∧
    ((part0.setTile 0 { testing := true }).wr GLOBAL_REPAIR_CFG_AUTO 1).rd GLOBAL_REPAIR_CFG_AUTO = 1 ∧
    (part0.setTile 0 { testing := true }).spareFree (dieOf 0) (rowOf 0) = true :=
  ⟨live_of (by decide +kernel), by decide +kernel⟩

/-- A descriptor of one line, queued on channel 0 of tile 0, and the same active. -/
def wd : WDesc := { tile := 0, ch := 0, prefetch := false, src := 0x1000, dst := 0, lines := 1, gate := 0 }
def channel (w : WeightCh) : Part := { part0.setTile 0 { work := .step, weights := [(0, w)] } with step := { running := true, started := true } }
def noWins (q : Part) : Part := q.wr LLC_WIN_BASE_VALID 0

theorem witness_WeightChannels : (st (channel { queue := [wd] })).live ∧ (channel { queue := [wd] }).step.running = true ∧
    (channel { queue := [wd] }).meshGone 0 = false ∧ (((channel { queue := [wd] }).tile 0).weight 0).queue = [wd] ∧
    (channel { queue := [wd] }).step.started = true ∧ (((channel { queue := [wd] }).tile 0).weight 0).active = none ∧
    wd.gate ≤ (channel { queue := [wd] }).step.gatesLeft ∧ (((channel { active := some wd }).tile 0).weight 0).active = some wd ∧ 0 < wd.lines ∧
    0 ∉ (((channel { active := some wd }).tile 0).weight 0).written ∧ (channel { active := some wd }).granted 0 wd.src 256 false = true ∧
    (channel { active := some wd }).hbm.lost = none ∧
    (∀ k, k < 4 → (channel { active := some wd }).pinLost (sectorOf (wd.src + 64 * k)) = false ∧
      (channel { active := some wd }).isDead ((channel { active := some wd }).phys (sectorOf (wd.src + 64 * k))) = false ∧
      (channel { active := some wd }).poisoned ((channel { active := some wd }).phys (sectorOf (wd.src + 64 * k))) = false) ∧
    (noWins (channel { active := some wd })).granted 0 wd.src 256 false = false ∧ (noWins (channel { active := some wd })).meshGone 0 = false :=
  ⟨live_of (by decide +kernel), by decide +kernel⟩

/-! ## Remote traffic, ports, membership (13) -/

/-- Device 0 has joined a domain of devices 0, 1, 2; port 0 is ACTIVE to device 1; SYMBITE holds function 0's window 0. -/
def domain0 : Part := ((((part0.wr GLOBAL_DEV_JOINED 1).wr TICK_STATUS_ROLE 1).wr GLOBAL_MEMBERS_MASK 7).wr BLK_STATUS_STATE 6 0).wr BLK_STATUS_PEER_DEV 1 0
def req1 : RemoteReq := { req 0x1000 64 with seq := 0 }
def final1 : HeldFinal := { key := req1.key, port := 0, count := 0, seq := 0, addr := 0x1000, len := 64, write := .store (bytes 64) (List.replicate 64 true) }
def holdsFinal : Part := { domain0 with domain := { finals := [final1] } }
def took : Part := { domain0 with domain := { peers := [(1, { low := 1 })] } }

/-- Line 0x1000 of HBM of a part without dead lines or a remapped pinned buffer. -/
theorem plain_at (q : Part) (h : q.isDead 0x1000 = false) (h1 : q.inPin 0x1000 = false) : q.Plain 0x1000 :=
  ⟨rfl, rfl, h, fun h2 => absurd h2 (by rw [h1]; decide)⟩

theorem leased_none (q : Part) (h : q.slices = []) (a n : Nat) (f : Lease → Bool) : q.leasedRange a n f = false := by
  have h0 : ∀ i, q.slice i = {} := by
    intro i
    show mget ({} : Slice) q.slices i = {}
    rw [h]
    rfl
  simp [Part.leasedRange, h0]

theorem witness_RemoteRequestsAtTheTarget : (st domain0).live ∧ domain0.hbm.lost = none ∧ domain0.dirtyWf ∧ req1.addr % 64 = 0 ∧
    domain0.Plain (lineOf req1.addr) ∧ domain0.pinLost req1.addr = false ∧ domain0.poisoned req1.addr = false ∧
    holdsFinal.domain.finals.find? (fun g => g.key = final1.key && holdsFinal.finalReady g) = some final1 ∧
    holdsFinal.leasedRange final1.addr final1.len (fun _ => false) = false ∧ domain0.arrives req1 = true ∧ domain0.foreign req1 = false ∧
    (noWins domain0).arrives req1 = true ∧ (noWins domain0).foreign req1 = false ∧ (noWins domain0).remoteOk req1 true = false ∧
    (noWins domain0).remoteOk req1 false = false ∧ domain0.remoteOk req1 true = true ∧ domain0.remoteOk req1 false = true ∧
    (∀ f ∈ domain0.domain.finals, ¬ (f.key = domain0.rxKey req1 ∧ f.seq = req1.seq)) ∧ took.repeated req1 = true ∧ took.remoteOk req1 true = true ∧
    domain0.repeated req1 = false ∧ domain0.keysFull (domain0.rxKey req1) = false ∧ domain0.leasedRange req1.addr req1.len (fun _ => false) = false ∧
    domain0.finalReady { final1 with count := 1 } = false ∧ domain0.finalReady final1 = true ∧ domain0.domain.finals.length < 256 ∧
    req1.key.ingest = false ∧ (∀ x ∈ domain0.net, x.id < domain0.nextId) ∧ 56 + atomSize .u64 ≤ 64 :=
  ⟨live_of (by decide +kernel), rfl, List.Pairwise.nil, rfl, plain_at _ (by decide +kernel) (by decide +kernel), by decide +kernel, by decide +kernel,
    by decide +kernel, leased_none _ rfl _ _ _, by decide +kernel, by decide +kernel, by decide +kernel, by decide +kernel, by decide +kernel, by decide +kernel,
    by decide +kernel, by decide +kernel, by decide +kernel, by decide +kernel, by decide +kernel, by decide +kernel, by decide +kernel, leased_none _ rfl _ _ _,
    by decide +kernel⟩

def sender1 : Part := (onTile group0).modTile 0 fun x => { x with unacked := unacked1 }

theorem witness_RemoteAnswersAtTheSender : (st sender1).live ∧ mwf {} sender1.tiles = true ∧ (∃ u ∈ (sender1.tile 0).unacked, u.dev = 1 ∧ u.seq = 0) ∧
    (∀ n, n ≠ 0 → ∀ u ∈ (sender1.tile n).unacked, ¬ (u.dev = 1 ∧ u.seq = 0)) ∧ (sender1.tile 0).work = .step ∧
    (awaiting none (some 1) .sent).req 7 = some (loaded none (some 1) .sent) ∧ (loaded none (some 1) .sent).dev.isSome = true ∧
    (loaded none (some 1) .sent).kind = .load 4 false false ∧ ((awaiting none (some 1) .sent).group 0 0).awaits 9 0 7 = true ∧
    ((awaiting none (some 1) .sent).group 0 0).awaits 9 1 7 = false := by
  refine ⟨live_of (by decide +kernel), by decide +kernel, by decide +kernel, ?_, by decide +kernel⟩
  intro n hn u hu
  have : sender1.tile n = {} := by
    show mget ({} : Tile) sender1.tiles n = {}
    have e : ∃ x : Tile, sender1.tiles = [(0, x)] := ⟨_, rfl⟩
    obtain ⟨x, e⟩ := e
    rw [e]
    simp [mget, Ne.symm hn]
  rw [this] at hu
  cases hu

/-- Port 0 in a state of its training. -/
def training (n : Nat) (x : Port) : Part := { part0.wr BLK_STATUS_STATE n 0 with ports := if x = {} then [] else [(0, x)] }

theorem witness_PortTraining : (∀ n ∈ [1, 2, 3, 4, 5, 7], (training n {}).rd BLK_STATUS_STATE 0 = n) ∧ (st (training 1 {})).live ∧
    ((training 1 {}).portLanes 0).1 ≠ 0 ∧ (training 4 {}).rd BLK_CFG_MODE 0 ≠ 2 ∧
    ((training 8 {}).wr BLK_CFG_ENABLE 1 0).rd BLK_STATUS_STATE 0 = 8 ∧ ((training 8 {}).wr BLK_CFG_ENABLE 1 0).rd BLK_CFG_ENABLE 0 = 1 ∧
    (((training 8 {}).wr BLK_CFG_ENABLE 1 0).wr HUSK_PORTS_ENABLE 1).rd HUSK_PORTS_ENABLE = 1 ∧
    (((training 7 {}).port 0).retrains.filter fun t => max (training 7 {}).now 0 < t + ms 1000).length < 8 ∧
    (({ retrains := List.replicate 7 0 } : Port).retrains.filter fun t => 0 < t + ms 1000).length < 8 ∧
    ((training 7 { fails := 2 }).port 0).fails = 2 :=
  ⟨by decide +kernel, live_of (by decide +kernel), by decide +kernel⟩

/-- Flits with the number expected (0), the last one taken (255), the oldest one still known (192), and one never sent (1). -/
def flit0 (n : Nat) : Flit := { seq := n, ack := 3, nak := false, ctrl := false, credit := 0, crcOk := true, rtt := 0 }

theorem witness_FlitsAndMargins : (training 6 {}).rd BLK_STATUS_STATE 0 = 6 ∧ (st (training 6 {})).live ∧ (flit0 0).seq % 256 = ((training 6 {}).port 0).expect ∧
    (∀ n ∈ [255, 192], (flit0 n).seq % 256 ≠ 0 ∧ (0 + 256 - (flit0 n).seq % 256) % 256 ≤ 64) ∧
    (∀ n ∈ [191, 1], (flit0 n).seq % 256 ≠ 0 ∧ 64 < (0 + 256 - (flit0 n).seq % 256) % 256) ∧ ((training 6 {}).port 0).discarding = false ∧
    ((training 6 { replay := [2, 3] }).port 0).replay.contains ((flit0 0).ack % 256) = true ∧ ((training 6 { replay := [2, 3] }).port 0).replay ≠ [] ∧
    (training 6 {}).rd BLK_CFG_MARGIN_MV 0 ≤ 255 ∧ mget 0 ((training 6 {}).port 0).low 16 + 1000000 ≤ 1000000 ∧
    ((training 6 {}).wr BLK_CFG_MODE 2 0).rd BLK_CFG_MODE 0 = 2 ∧ ((training 6 {}).wr BLK_CFG_MODE 2 0).rd BLK_STATUS_STATE 0 = 6 :=
  ⟨by decide +kernel, live_of (by decide +kernel), by decide +kernel⟩

/-- A member under another master; the master of devices 0, 1, 2 without a route to them; a device that asked to join. -/
def follower : Part := { domain0.wr TICK_STATUS_ROLE 0 with tick := { master := 1 } }
def cut (role : Nat) : Part := { (domain0.wr BLK_STATUS_STATE 8 0).wr TICK_STATUS_ROLE role with tick := { master := 1 } }
def asking : Part := { part0 with domain := { hellos := [0] } }
def hello3 : Hello := { domain0.ownHello with dev := 3 }
def fwd0 : Fwd := { id := 4, dev := 1, issue := cmdM 0x0307 }
def forwarded : Part := { domain0 with host := { fwds := [fwd0] } }

theorem witness_DomainMembership : (st domain0).live ∧ domain0.joined = true ∧ domain0.isMaster = true ∧ domain0.refuses hello3 = 0 ∧
    domain0.refuses { hello3 with dev := 2 } = 4 ∧ domain0.refuses { hello3 with domainId := 99 } = 1 ∧ domain0.refuses { hello3 with topology := 3 } = 2 ∧
    domain0.refuses { hello3 with tickCfg := hello3.tickCfg + 1 } = 3 ∧
    asking.joined = false ∧ (7 : W64).getLsbD asking.dev = true ∧ asking.dev ∈ asking.domain.hellos ∧ follower.joined = true ∧ follower.isMaster = false ∧
    (6 : W64).getLsbD follower.dev = false ∧ (3 : W64).getLsbD follower.dev = true ∧ follower.member 2 = true ∧ (3 : W64).getLsbD 2 = false ∧
    (cut 0).noRoute 1 = true ∧ (cut 0).isMaster = false ∧ (cut 1).noRoute 1 = true ∧ (cut 1).isMaster = true ∧ domain0.member 1 = true ∧
    domain0.member 2 = true ∧ (2 : Nat) ≠ domain0.dev ∧ (∀ c ∈ domain0.domain.reports, c.2 ≠ 2) ∧
    (1, 2) ∈ ({ domain0 with domain := { reports := [(1, 2)] } } : Part).domain.reports ∧
    ((cut 0).wr GLOBAL_DEV_DOMAIN_SIZE 3).joined = true ∧ ((cut 0).wr GLOBAL_DEV_DOMAIN_SIZE 3).majority = false ∧
    forwarded.host.fwds.find? (fun g => g.id = fwd0.id && g.dev = 1) = some fwd0 ∧ forwarded.host.fwds.find? (fun g => g.id = fwd0.id) = some fwd0 :=
  ⟨live_of (by decide +kernel), by decide +kernel⟩

/-! ## The step tick (02) -/

/-- A step over pod 0 with no slot to run, or slot 0; its verdict. -/
def img0 : Image := { addr := 0x100000, len := 128, id := 1, keep := false, pods := 1, schedSlots := 0, hintCount := 0, sections := [] }
def stepping (v : Option Verdict) (x : Step) : Part :=
  { part0.wr TICK_STATUS_ROLE 1 with tick := { verdictIn := v.map fun v => (v, false) }, step := { x with active := some img0 } }
/-- Every router has ended, streams done. -/
def ended (f : Bool) : Part :=
  { stepping none { running := true, started := true, faulted := f, streams := [0], done := [0] } with routers := every 3072 { state := .ended } }

theorem witness_BoundariesAndSteps : (st (stepping none {})).live ∧
    (∀ v ∈ [none, some Verdict.commit, some .abandon, some .halt, some .stretch], (stepping v {}).repair.pending = [] ∧ (stepping v {}).step.staged = none ∧
      (stepping v {}).domain.hellos = [] ∧ (stepping v {}).repair.fwIssue = none ∧ (stepping v {}).tick.resumeReq = false ∧
      (stepping v {}).tick.haltReq = false ∧ (stepping v {}).tick.plans = [] ∧ (stepping v {}).step.active = some img0 ∧
      (stepping v {}).step.halted = false ∧ (stepping v {}).tick.verdictIn = v.map fun v => (v, false)) ∧
    (stepping none { running := true }).canStart = true ∧ (stepping none { running := true }).step.runs = [] ∧
    (stepping none { running := true, runs := [0] }).canStart = true ∧ (stepping none { running := true, runs := [0] }).step.runs ≠ [] ∧
    (∀ f, (ended f).stepGoes = true ∧ (ended f).step.started = true ∧ (∀ t ∈ (ended f).step.streams, t ∈ (ended f).step.done) ∧ (ended f).step.faulted = f) ∧
    (∀ f t, t < 3072 → ((ended f).router t).state = .ended) ∧ (stepping none {}).tick.phase ≠ .guard ∧
    (follower.joined = true ∧ follower.isMaster = false) := by
  refine ⟨live_of (by decide +kernel), by decide +kernel, by decide +kernel, by decide +kernel, by decide +kernel, by decide +kernel, ?_, ?_, by decide +kernel,
    by decide +kernel⟩
  · intro f; exact ⟨rfl, rfl, fun t h => h, rfl⟩
  · intro f t ht
    have : (ended f).router t = { state := .ended } := mget_every _ _ _ _ ht
    rw [this]

/-- The master, alone, in the guard window with a report of its own. -/
def judging (rep : StepReport) : Part :=
  { stepping none { running := true } with tick := { phase := .guard, lastStatus := rep } }
/-- A member whose master is device 1, a time after its last SYNC. -/
def lagging (t : Nat) : Part := { follower.wr TICK_MASTER_CFG_COUNT 2 with now := t }
def succeeding : Part := ((lagging (ms 4)).wr TICK_MASTER_CFG_SUCC1 1).wr TICK_MASTER_CFG_SUCC2 2

theorem witness_VerdictsAnnouncementsAndTime : (st domain0).live ∧ domain0.isMaster = true ∧ domain0.joined = true ∧ domain0.member 1 = true ∧
    domain0.now + us 12 ≤ domain0.tick.boundary ∧ ({ domain0 with now := domain0.tick.boundary - us 12 } : Part).now + us 12 ≤ domain0.tick.boundary ∧
    (judging .complete).isMaster = true ∧ (judging .complete).tick.phase = .guard ∧ (judging .complete).tick.verdictIn = none ∧
    (judging .complete).step.active ≠ none ∧ (judging .complete).step.halted = false ∧ (∀ r ∈ (judging .complete).reportsIn, r = .complete) ∧
    .faulted ∈ (judging .faulted).reportsIn ∧
    ((judging .faulted).wr TICK_CTL_REPLAY_MAX 2).rd TICK_STATUS_ABANDON_COUNT + 1 < ((judging .faulted).wr TICK_CTL_REPLAY_MAX 2).rd TICK_CTL_REPLAY_MAX ∧
    ({ judging .complete with step := {} } : Part).step.active = none ∧ follower.isMaster = false ∧ follower.joined = true ∧
    domain0.tick.announced = false ∧ domain0.tick.plans = [] ∧ follower.rd TICK_STATUS_SYNC_STATE ≠ 3 ∧ follower.tickNo + 1 < follower.tickNo + 2 ∧
    (1 : DevId).val = follower.tick.master ∧ (lagging (us 2501)).rd TICK_STATUS_SYNC_STATE ≠ 2 ∧
    (lagging (us 2501)).tick.lastSync + us 2500 < max 0 (lagging (us 2501)).now ∧ succeeding.tick.lastSync + ms 4 ≤ max 0 succeeding.now ∧
    succeeding.isMaster = false ∧ succeeding.joined = true ∧
    succeeding.successors.find? (fun d => succeeding.member d && d ≠ succeeding.tick.master) = some 2 :=
  ⟨live_of (by decide +kernel), by decide +kernel⟩

/-! ## Queues and the host link (14) -/

/-- Queue 1 of function 1: a running submission queue of 8 slots of 128 bytes on completion queue 2, `n` as its doorbell. -/
def sq1 (state n : Nat) : SubQ := { state, doorbell := n, log2 := 3, slotLog2 := 7, cq := 2 }
def cq2 : CompQ := { exists_ := true, log2 := 4, written := 3, consumed := 1 }
def rec1 : CmdRec := { fn := 1, q := 1, gen := 1, op := 0x0001, tag := 9, ordered := false, notify := false, remote := none, params := [] }
def hosted (x : SubQ) (a b : List CmdRec) : Part :=
  { (part0.setSq 1 1 x).setCq 1 2 cq2 with host := { ((part0.setSq 1 1 x).setCq 1 2 cq2).host with accepted := a, started := b } }
/-- A slot of generation 1. -/
def slot1 : List Byte := List.replicate 12 0 ++ leBytes 4 1 ++ List.replicate 104 0 ++ leBytes 8 (1 + 2 ^ 32 + 2 ^ 38)

theorem witness_QueuesDoorbellsAndMailboxes : (st part0).live ∧ ((hosted (sq1 1 0) [] []).sq 1 1).state ≠ 0 ∧
    2 ^ (sq1 1 0).log2 ≤ genDist (sq1 1 0).after 9 ∧ genDist (sq1 1 0).after 8 < 2 ^ (sq1 1 0).log2 ∧ (sq1 1 0).covered 8 = false ∧ (sq1 1 8).covered 8 = true ∧
    (hosted (sq1 1 0) [] []).sq 1 1 = sq1 1 0 ∧ (sq1 1 0).announced = 0 ∧ 0 < (sq1 1 8).announced ∧ part0.repair.fwOld = false ∧
    ((hosted (sq1 1 0) [] []).cq 1 2).written - ((hosted (sq1 1 0) [] []).cq 1 2).consumed = 2 ∧
    getB (1 + 2 ^ 32 : W64) 0 1 = 1 ∧ getB (1 + 2 ^ 32 : W64) 32 32 ≠ 0 ∧ (sq1 2 8).covered (getB (1 + 2 ^ 32 : W64) 32 32) = true ∧
    ((hosted (sq1 2 8) [] []).sq 1 1).state = 2 ∧ slot1.length = 2 ^ (sq1 1 8).slotLog2 ∧ slotMatches slot1 1 1 (sq1 1 8).expect = true ∧
    slotMatches (List.replicate 128 0) 1 1 (sq1 1 8).expect = false ∧ { sq1 1 8 with misses := 7 }.misses < 8 ∧ 8 ≤ { sq1 1 8 with misses := 8 }.misses ∧
    { sq1 1 8 with retrying := true, rereads := 7 }.rereads < 8 ∧
    (hosted (sq1 1 8) [rec1] []).host.accepted.find? (fun r => r.fn = 1 && r.q = 1) = some rec1 ∧ ((hosted (sq1 1 8) [rec1] []).cq 1 2).room = true ∧
    ((hosted (sq1 1 8) [rec1] []).host.started.filter fun y => y.fn = 1).length < 64 ∧ rec1.ordered = false ∧
    ((hosted (sq1 1 8) [rec1] []).wr HUSK_OPC_CLASSES 31 0 0).huskAnswer rec1 = none ∧
    ((hosted (sq1 1 8) [rec1] []).wr HUSK_OPC_CLASSES 31 0 0).host = (hosted (sq1 1 8) [rec1] []).host ∧ (hosted (sq1 1 8) [] [rec1]).host.started.find? (isRec 1 1 1) = some rec1 ∧
    rec1.silent = false ∧ (hosted (sq1 1 8) [] [rec1]).attached = true ∧ (part0.wr UCI_STATUS_NUM_VF 1).vfEnabled 1 = true ∧ (2 : W64).getLsbD 1 = true :=
  ⟨live_of (by decide +kernel), by decide +kernel⟩

/-- The window register VALID of window 0 and the identity register, as BAR0 reaches them; the link up, or down since the start. -/
def linked (n : Nat) : Part := part0.wr UCI_STATUS_LINK_STATE n

theorem witness_HostAccessesAndLink : (st part0).pins.inReset = false ∧ hostWord (8 / 8 * 8) = .reg ∧ csAligned 8 8 = true ∧ (part0.csRead 8 8).isSome = true ∧
    part0.csRead 0xFFFFF8 8 = none ∧ hostWord (0xFFFFF8 / 8 * 8) = .reg ∧ part0.fatal = false ∧ dead0.part.fatal = true ∧
    (part0.csWrite 0x60010 8 1).isSome = true ∧ hostWord (0x60010 / 8 * 8) = .reg ∧
    part0.rd UCI_BAR2_BASE_BASE = 0 ∧ (noWins part0).granted 0 0x1000 8 false = false ∧ (noWins part0).granted 0 0x1000 8 true = false ∧
    part0.hbmIn (0x1000 + 4096 - 1) = true ∧ part0.granted 0 0x1000 4096 false = true ∧ part0.granted 0 0x1000 4096 true = true ∧
    (linked 5).rd UCI_STATUS_LINK_STATE = 5 ∧ (linked 5).attached = true ∧ (linked 6).rd UCI_STATUS_LINK_STATE ≠ 5 ∧ (linked 6).attached = true ∧
    ({ linked 6 with now := ms 1000 } : Part).host.downAt + ms (clamp 1 1000 ((linked 6).rd UCI_CFG_DETACH_MS)) ≤ max 0 (ms 1000) ∧
    (part0.wr UCI_STATUS_NUM_VF 1).vfEnabled 1 = true ∧ (awaiting none none .sent).req 7 = some (loaded none none .sent) ∧
    (awaiting none none .sent).fatal = false :=
  ⟨rfl, by decide +kernel⟩

/-! ## Symbite (15, 16) -/

/-- `part0` whose Husk admits every opcode to every class, with `q` changed further. -/
def open0 : Part := { part0 with ctl := part0.ctl.map fun c => if 0x20400 ≤ c.1 ∧ c.1 < 0x20568 then (c.1, c.2 ||| 0x1F0000) else c }

theorem passes_of {p : Part} {c : Issue} {i : Nat} (h : p.stage = 7 ∧ p.attached = true ∧ (p.counted c).admits i c.cls = true ∧ c.origin = none ∧
    c.remote = none ∧ ¬ (c.cls = .m ∧ c.fn ≠ 0) ∧ ¬ (c.cls = .t ∧ c.fn = 0)) : p.Passes c i := by
  obtain ⟨h1, h2, h3, h4, h5, h6, h7⟩ := h
  refine ⟨h1, fun d => ?_, fun b => ?_, h3, fun d h => ?_, fun d h => ?_⟩
  · exact absurd d.2.2.1 (by rw [h2]; decide)
  · rcases b with b | b | b
    · exact h6 b
    · exact h7 b
    · rw [h4] at b; exact absurd b.1 (by decide)
  · rw [h4] at h; cases h
  · rw [h5] at h; cases h

/-- Part `p` passes the manager's packets with these opcode numbers. -/
def passesM (p : Part) (l : List Nat) : Bool := decide (p.stage = 7) && p.attached && l.all fun i => (p.counted (cmdM 1)).admits i .m

theorem passesM_of {p : Part} {l : List Nat} (h : passesM p l = true) (op : BitVec 16) (i : Nat) (hi : i ∈ l) : p.Passes (cmdM op) i := by
  simp only [passesM, Bool.and_eq_true, decide_eq_true_eq, List.all_eq_true] at h
  exact passes_of ⟨h.1.1, h.1.2, h.2 i hi, rfl, rfl, fun e => e.2 rfl, fun e => absurd e.1 (fun h => CmdClass.noConfusion h)⟩

/-- A packet for another device; one that another device forwarded. -/
def away1 (d : DevId) : Issue := { cmdM 1 with remote := some d }
def from1 : Issue := { cmdM 1 with origin := some 1 }
def staged (n : Nat) : Part := open0.wr HUSK_STATUS_STAGE n

theorem witness_SymbiteChecks : (st open0).live ∧ (Instr.nop (cmdM 1)).symbite = some (cmdM 1, 0) ∧ (staged 6).stage ≠ 7 ∧ (staged 6).stage ≠ 8 ∧
    (staged 8).stage = 8 ∧ (cmdM 1).cls ≠ .b ∧ (cmdB 1).cls = .b ∧ open0.stage = 7 ∧ (open0.wr UCI_STATUS_ATTACHED 0).detachedFor (cmdM 1) 0 ∧
    ¬ open0.detachedFor (cmdM 1) 0 ∧ Issue.badFor { cmdM 1 with fn := 3 } ∧ ¬ Issue.badFor (cmdM 1) ∧ (part0.counted (cmdM 1)).admits 0 .m = false ∧
    (open0.counted (cmdM 1)).admits 0 .m = true ∧ from1.origin = some 1 ∧ (open0.counted from1).member 1 = false ∧ ¬ Issue.badFor from1 ∧
    (away1 1).remote = some 1 ∧ (away1 1).origin = none ∧ (1 : DevId).val ≠ open0.dev ∧ (2 : Nat) ∉ opForwards ∧ (0 : Nat) ∈ opForwards ∧
    (open0.counted (away1 1)).member 1 = false ∧
    (((open0.wr GLOBAL_DEV_JOINED 1).wr GLOBAL_MEMBERS_MASK 3).counted (away1 1)).member 1 = true := by
  refine ⟨live_of (by decide +kernel), rfl, by decide +kernel, by decide +kernel, by decide +kernel, by decide, by decide, by decide +kernel,
    ⟨.inl rfl, rfl, by decide +kernel, by decide⟩, fun h => absurd h.2.2.1 (by decide +kernel), .inl ⟨rfl, by decide⟩, ?_, by decide +kernel, by decide +kernel, rfl,
    by decide +kernel, ?_, rfl, rfl, by decide +kernel, by decide, by decide, by decide +kernel, by decide +kernel⟩
  all_goals
    unfold Issue.badFor
    decide

/-- The queues of function 0: completion queue 1, submission queue 2 on it. -/
def queued : Part := (open0.setCq 0 1 { exists_ := true, log2 := 4 }).setSq 0 2 { state := 1, log2 := 4, slotLog2 := 7, cq := 1 }

theorem witness_QueriesAndQueueCommands : (st open0).live ∧ (∀ i ∈ [0, 1, 2, 3, 4, 5, 6, 10, 35, 38, 40, 41], open0.Passes (cmdM 1) i) ∧
    0 < (open0.counted (cmdM 1)).inventory.length ∧ ownOnly (cmdM 1) 0 = true ∧ (open0.counted (cmdM 1)).noIdentity = false ∧
    ((open0.wr HUSK_STATUS_ID_FAIL 0xFFFF).counted (cmdM 1)).noIdentity = true ∧ (open0.wr HUSK_STATUS_ID_FAIL 0xFFFF).Passes (cmdM 1) 40 ∧
    (open0.wr UCI_STATUS_ATTACHED 0).Passes (cmdM 2) 2 ∧ ((open0.wr UCI_STATUS_ATTACHED 0).counted (cmdM 2)).attached = false ∧
    (open0.counted (cmdM 1)).attached = true ∧ queue1.queue ≤ 31 ∧ queue1.targetFn.val ≤ (open0.counted (cmdM 1)).rd UCI_STATUS_NUM_VF ∧ 4 ≤ queue1.entriesLog2 ∧
    queue1.entriesLog2 ≤ 12 ∧ queue1.vector < vectors queue1.targetFn ∧ queue1.base % 4096 = 0 ∧ ((open0.counted (cmdM 1)).cq 0 1).exists_ = false ∧
    (open0.counted (cmdM 1)).eventCq 0 = none ∧ (queued.counted (cmdM 1)).sq 0 3 = {} ∧ ((queued.counted (cmdM 1)).cq 0 1).exists_ = true ∧
    ((queued.counted (cmdM 1)).sq 0 2).state ≠ 0 ∧ queued.Passes (cmdM 1) 6 ∧ (∃ i, i < 32 ∧ ((queued.counted (cmdM 1)).sq 0 i).state ≠ 0 ∧
      ((queued.counted (cmdM 1)).sq 0 i).cq = 1) ∧
    (∀ i, i < 32 → (((open0.setCq 0 1 { exists_ := true }).counted (cmdM 1)).sq 0 i).state ≠ 0 →
      (((open0.setCq 0 1 { exists_ := true }).counted (cmdM 1)).sq 0 i).cq ≠ 1) := by
  refine ⟨live_of (by decide +kernel), fun i hi => passesM_of (l := [0, 1, 2, 3, 4, 5, 6, 10, 35, 38, 40, 41]) (by decide +kernel) _ _ hi, by decide +kernel, by decide, by decide +kernel, by decide +kernel,
    passesM_of (l := [40]) (by decide +kernel) _ _ (by decide), ⟨by decide +kernel, fun h => h.2.2.2 rfl, ?_, by decide +kernel, fun d h => (nomatch h), fun d h => (nomatch h)⟩,
    by decide +kernel, by decide +kernel, by decide, by decide +kernel, by decide, by decide, by decide, by decide, by decide +kernel, by decide +kernel,
    by decide +kernel, by decide +kernel, by decide +kernel, passesM_of (l := [6]) (by decide +kernel) _ _ (by decide), ⟨2, by decide +kernel⟩, by decide +kernel⟩
  unfold Issue.badFor
  decide

/-- The part as a packet finds it. -/
def ct (p : Part) : Part := p.counted (cmdM 1)
/-- Window 1 is PINNED, kept, granted to nobody, 4 MiB over the pinned buffer; function 2 has a record with a share and save slots. -/
def tenant : Part :=
  let p := foldN 1 open0 fun _ p => ((((p.wr LLC_WIN_BASE_VALID 1 0 1).wr LLC_WIN_SIZE_SIZE_4K 0x400 0 1).wr LLC_WIN_ATTR_TYPE 2 0 1).wr LLC_WIN_ATTR_KEEP 1 0 1).wr LLC_WIN_GRANT_FN 0 0 1
  (((p.wr UCI_STATUS_NUM_VF 63).wr SCHED_FN_CFG_SHARE 1 0 2).wr SCHED_FN_CFG_SAVE_SLOTS 4 0 2).wr SCHED_FN_CFG_SAVE_WIN 2 0 2
def vf1 : VfParams := { vf := 1, share := 1, seqFirst := 0, seqCount := 8, pageQuota := 16, saveWin := 1, saveSlots := 1, saveSlotKib := 1024, pods := 1 }
/-- Function 2's kernel 1, accepted; pod 0 granted to it. -/
def kernel2 : Kernel := { kernel0 with fn := 2, issue := { cmdT 0x0401 with fn := 2 } }
def accepted2 : Part := { (tenant.wr PD_GRANT_FN 4 0).setKernel 1 (some kernel2) with
  sched := { ((tenant.wr PD_GRANT_FN 4 0).setKernel 1 (some kernel2)).sched with order := [1], nextKernel := 2 } }
def tenantT (op : BitVec 16) : Issue := { cmdT op with fn := 2 }

theorem passesT_of {p : Part} {c : Issue} {i : Nat} (h : (decide (p.stage = 7) && p.attached && (p.counted c).admits i c.cls) = true) (hc : c.cls = .t)
    (hf : c.fn ≠ 0) (ho : c.origin = none) (hr : c.remote = none) : p.Passes c i := by
  simp only [Bool.and_eq_true, decide_eq_true_eq] at h
  exact passes_of ⟨h.1.1, h.1.2, h.2, ho, hr, fun e => (hc ▸ e.1 : CmdClass.t = .m) |> CmdClass.noConfusion, fun e => hf e.2⟩

theorem witness_FunctionsKernelsAndDomainCommands : (st tenant).live ∧ (∀ i ∈ [7, 8, 9, 11, 21, 29, 32, 33, 34], tenant.Passes (cmdM 1) i) ∧
    (ct tenant).hasRecord 2 = true ∧ (ct tenant).hasRecord 1 = false ∧ vf1.vf ≠ 0 ∧
    vf1.vf.val ≤ (ct tenant).rd UCI_STATUS_NUM_VF ∧ 0 < vf1.share ∧ vf1.share ≤ 65535 ∧ vf1.seqFirst ≤ 4095 ∧
    vf1.seqFirst + vf1.seqCount ≤ 4096 ∧ vf1.saveSlots ≤ 192 ∧ vf1.saveSlotKib ≤ 65535 ∧ vf1.saveSlotKib % 4 = 0 ∧
    (ct tenant).saveWinOk vf1.saveWin = true ∧ vf1.saveSlots * vf1.saveSlotKib * 1024 ≤ (ct tenant).winSize vf1.saveWin ∧
    (∀ g, g < 64 → g ≠ vf1.vf.val → (ct tenant).hasRecord g = true →
      (ct tenant).rd SCHED_FN_CFG_SAVE_WIN 0 g ≠ vf1.saveWin ∧ overlap vf1.seqFirst vf1.seqCount ((ct tenant).rd SCHED_FN_SEQ_SEQ_FIRST 0 g)
        ((ct tenant).rd SCHED_FN_SEQ_SEQ_COUNT 0 g) = false) ∧
    (maskPods vf1.pods).length ≤ vf1.saveSlots ∧ (∀ n ∈ maskPods vf1.pods, inMask (ct tenant).repair.retiredPods n = false) := by
  refine ⟨live_of (by decide +kernel), fun i hi => passesM_of (l := [7, 8, 9, 11, 21, 29, 32, 33, 34]) (by decide +kernel) _ _ hi, by decide +kernel⟩

theorem witness_OwnersScopesAndJoins : (ct tenant).fnKernels 2 = [] ∧ (accepted2.counted (cmdM 1)).hasRecord 2 = true ∧ (accepted2.counted (cmdM 1)).fnKernels 2 ≠ [] ∧
    (ct tenant).grantCount 2 + ((maskPods 1).filter fun n => !((ct tenant).rd PD_GRANT_FN n).testBit 2).length ≤
      (ct tenant).rd SCHED_FN_CFG_SAVE_SLOTS 0 2 ∧ (∀ n ∈ maskPods 1, (ct tenant).imagePod n = false) ∧
    (0x0000 : BitVec 16).toNat / 4096 = 0 ∧ 7 < (0x8000 : BitVec 16).toNat / 4096 ∧ 0 < (0x1000 : BitVec 16).toNat / 4096 ∧ (0x7000 : BitVec 16).toNat / 4096 ≤ 7 ∧
    badHint 0 = false ∧ (ct tenant).joined = false ∧ (ct tenant).rd GLOBAL_DOMAIN_CFG_TOPOLOGY = 0 ∧
    ((tenant.wr GLOBAL_DOMAIN_CFG_TOPOLOGY 1).counted (cmdM 1)).rd GLOBAL_DOMAIN_CFG_TOPOLOGY ≠ 0 := by
  decide +kernel

/-- The manager of a domain: device 0, with devices 1 and 2. -/
def openDomain : Part := ((open0.wr GLOBAL_DEV_JOINED 1).wr GLOBAL_MEMBERS_MASK 7).wr TICK_STATUS_ROLE 1

theorem witness_LaunchKillExclude : accepted2.Passes (tenantT 1) 30 ∧ accepted2.Passes (tenantT 1) 31 ∧ openDomain.Passes (cmdM 1) 34 ∧
    (openDomain.counted (cmdM 1)).joined = true ∧ (openDomain.counted (cmdM 1)).isMaster = true ∧ (openDomain.counted (cmdM 1)).member 1 = true ∧
    (1 : DevId).val ≠ openDomain.dev ∧ 0 < launch0.blocks ∧ 0 < launch0.nReg ∧ launch0.nReg ≤ 256 ∧ 0 < launch0.groups ∧ launch0.groups ≤ 16 ∧
    launch0.l1Size ≤ 4 ∧ launch0.code % 8 = 0 ∧ launch0.pods ≠ 0 ∧
    (∀ n ∈ maskPods launch0.pods, ((accepted2.counted (tenantT 1)).rd PD_GRANT_FN n).testBit 2 = true) ∧
    (accepted2.counted (tenantT 1)).copyCheck 2 launch0.code 8 false = 0 ∧ (accepted2.counted (tenantT 1)).copyCheck 2 launch0.argPtr 1 false = 0 ∧
    0 < residentBlocks launch0.groups launch0.nReg launch0.localBytes (scratchOf launch0.l1Size) ∧
    footprint launch0 ≤ ((accepted2.wr SCHED_FN_CFG_SAVE_SLOT_KIB 65532 0 2).counted (tenantT 1)).rd SCHED_FN_CFG_SAVE_SLOT_KIB 0 2 ∧
    (accepted2.counted (tenantT 1)).sched.order = [1] ∧ (accepted2.counted (tenantT 1)).kernel 1 = some kernel2 ∧ kernel2.fn = (tenantT 1).fn.val ∧
    kernel2.killed = false := by
  refine ⟨passesT_of (by decide +kernel) rfl (by decide) rfl rfl, passesT_of (by decide +kernel) rfl (by decide) rfl rfl,
    passesM_of (l := [34]) (by decide +kernel) _ _ (by decide), by decide +kernel⟩

/-- Pod 0 in a state with kernel 1, which it runs, saves or restores; the same with its state saved. -/
def podIn (n : Nat) : Part := (accepted2.wr PD_STATUS_STATE n 0).setPodRun 0 { kernel := some 1 }
def saved2 : SavedPod := { pod := 0, fn := 2, kernel := 1, slot := 0, at_ := 0, tiles := [] }
def withSaved (p : Part) : Part := { p with sched := { p.sched with saved := [saved2] } }

theorem fnsOk_podIn (p : Part) (h : p.sched.kernels = [(1, some kernel2)]) (h2 : p.sched.saved = [] ∨ p.sched.saved = [saved2]) : p.FnsOk := by
  constructor
  · intro k x hx
    rw [Part.kernel, h] at hx
    simp only [mget] at hx
    split at hx
    · cases hx; decide
    · cases hx
  · intro v hv
    rcases h2 with h2 | h2 <;> rw [h2] at hv
    · cases hv
    · cases List.mem_singleton.1 hv; decide

theorem witness_SchedulerOnPods : (st accepted2).live ∧ accepted2.FnsOk ∧ (withSaved accepted2).FnsOk ∧ accepted2.openPod 0 = true ∧ accepted2.podState 0 = 0 ∧
    accepted2.rd PD_STATUS_OWNER_KIND 0 = 0 ∧ accepted2.podFit 0 = true ∧ (accepted2.at 0).chargeAll.nextFn 0 = some 2 ∧ accepted2.savedOn 0 2 = none ∧
    accepted2.waitingOn 0 2 = some 1 ∧ accepted2.kernel 1 = some kernel2 ∧ ((withSaved accepted2).at 0).chargeAll.nextFn 0 = some 2 ∧ (withSaved accepted2).savedOn 0 2 = some saved2 ∧
    ((podIn 2).podRun 0).kernel = some 1 ∧ (podIn 2).podState 0 = 2 ∧ (podIn 2).net = [] ∧
    (∀ t ∈ (podIn 2).podWork 0 1, ((podIn 2).tile t).seq ≠ .ending ∧ ((podIn 2).tile t).sb = [] ∧ ((podIn 2).tile t).dirtySectors = [] ∧
      ((podIn 2).tile t).unacked = [] ∧ (podIn 2).wbDone t (podIn 2).nextId = true) ∧
    ((withSaved (podIn 3)).podRun 0).kernel = some 1 ∧ (withSaved (podIn 3)).podState 0 = 3 ∧
    (withSaved (podIn 3)).sched.saved.find? (fun v => v.pod = 0 && v.kernel = 1) = some saved2 ∧ (withSaved (podIn 3)).kernel 1 = some kernel2 ∧
    (accepted2.wr SCHED_CFG_SHARE_PREEMPT 0).rd SCHED_CFG_SHARE_PREEMPT = 0 ∧ accepted2.sched.waits = [] := by
  refine ⟨live_of (by decide +kernel), fnsOk_podIn _ (by decide +kernel) (.inl (by decide +kernel)), fnsOk_podIn _ (by decide +kernel) (.inr (by decide +kernel)),
    by decide +kernel⟩

/-! ## Windows, ways, copies, images, sequences (08, 02, 15) -/

def win2 : WinParams := { win1 with base := 2 ^ 32, size4k := 16, ways := 0xF }
def waiting (k : CleanKind) : Part := { open0 with cleans := [{ token := 3, kind := k, issue := none }], nextId := 8 }
def asWin (v : WinParams) : Win := { base := v.base, size := 4096 * v.size4k, attr := v.attr, ways := v.ways, grant := v.grant, backing := getB v.gold0 0 52 }
/-- Window 0 with the ways 0 to 7. -/
def ways8 : Part := open0.wr LLC_WIN_SIZE_WAYS 255

theorem witness_WindowAndWayCommands : (st open0).live ∧ (∀ i ∈ [12, 13, 14, 15, 16, 22], open0.Passes (cmdM 1) i) ∧ badWin { win2 with size4k := 0 } = true ∧
    badWin win2 = false ∧ (ct open0).conflict 64 (asWin { win2 with base := 0 }) true = true ∧ (ct open0).conflict 64 (asWin win2) true = false ∧
    (ct open0).overQuota 64 (asWin win2) = false ∧
    ((ct (tenant.wr SCHED_FN_SEQ_PAGE_QUOTA 0 0 2)).overQuota 64 (asWin { win2 with grant := 4 })) = true ∧
    (ct open0).winValid 1 = false ∧ (ct open0).winValid 0 = true ∧ 0 ∉ (ct open0).closing ∧
    (∀ f, f < 64 → (ct open0).hasRecord f = true → (ct open0).rd SCHED_FN_CFG_SAVE_WIN 0 f ≠ 0) ∧
    ((ct ways8).winOf 0).ways &&& (65535 - 255) = 0 ∧ ((ct ways8).winOf 0).ways &&& (65535 - 15) ≠ 0 ∧
    (ct ways8).conflict 0 { (ct ways8).winOf 0 with ways := 15 } false = false ∧ (ct ways8).overQuota 0 { (ct ways8).winOf 0 with ways := 15 } = false := by
  refine ⟨live_of (by decide +kernel), fun i hi => passesM_of (l := [12, 13, 14, 15, 16, 22]) (by decide +kernel) _ _ hi, by decide +kernel⟩

theorem witness_LocksPowerAndEvacuation :
    0 ∈ (ct { open0 with closing := [0] }).closing ∧ (ct open0).lockL = 0 ∧ (ct open0).repair.sliceMap = [] ∧ (ct open0).lockTo = (ct open0).lockL ∧
    (ct (waiting (.lock 2))).lockTo ≠ (ct (waiting (.lock 2))).lockL ∧ (ct (open0.wr LLC_STATUS_WAYS_LOCKED (lockedMask 2))).lockL = 2 ∧
    (ct (open0.wr LLC_STATUS_WAYS_LOCKED (lockedMask 2))).pinnedIn (pinBase + 0x4000000) 0x4000000 = false ∧
    (ct (tenant.wr LLC_STATUS_WAYS_LOCKED (lockedMask 1))).lockL = 1 ∧
    (∀ m, m < 64 → (ct open0).winValid m = true → (ct open0).winType m = 2 ∨ (ct open0).winWays m &&& (lockedMask 1 &&& (65535 - lockedMask 0)) = 0) ∧
    (∀ w, w < 16 → ∀ t, t < 4 → (lockedMask 1 &&& (65535 - lockedMask 0)).testBit w = true → (ct open0).poweredOn t (2 ^ w) 0 = true) ∧
    (ct open0).rd LLC_STATUS_WAYS_POWERED 0 &&& 0xF0 = 0xF0 ∧ ¬ (ct (open0.wr LLC_STATUS_WAYS_POWERED 0xF)).rd LLC_STATUS_WAYS_POWERED 0 &&& 0xF0 = 0xF0 ∧
    (∃ k ∈ (waiting (.powerUp 0 1)).cleans, k.kind = .powerUp 0 1) ∧
    (waiting (.powerUp 0 1)).cleans.find? (fun k => k.kind = .powerUp 0 1) = some { token := 3, kind := .powerUp 0 1, issue := none } ∧
    lockedMask (ct open0).lockTo &&& 0xF0 = 0 := by
  decide +kernel

theorem witness_Evacuation : (ct (open0.wr HBM_STATUS_STATE 2 0)).rd HBM_STATUS_STATE 0 = 2 ∧ open0.hbm.lost = none ∧ open0.hbm.evac = none ∧
    (ct (open0.wr HBM_STATUS_STATE 0 0)).rd HBM_STATUS_STATE 0 ≠ 2 := by
  decide +kernel

/-! ## Copies, images, sequences (02, 06, 15) -/

theorem sound_of (p : Part) (h : p.poison = [] ∧ p.dead = [] ∧ p.hbm.marks = [] ∧ p.hbm.lost = none ∧ p.repair.sliceMap = [] ∧ p.dirty = []) : p.Sound := by
  obtain ⟨h1, h2, h3, h4, h5, h6⟩ := h
  refine ⟨h1, h2, h3, h4, h5, ?_, ?_⟩
  · rw [Part.dirtyWf, h6]; exact List.Pairwise.nil
  · intro c hc; rw [h6] at hc; cases hc

/-- Window 1 is a PINNED one over the first 256 KiB of a pinned buffer of one locked way; a CONTROL window of 512 KiB. -/
def winAt1 (type base : Nat) : Part :=
  ((((open0.wr LLC_WIN_BASE_VALID 1 0 1).wr LLC_WIN_BASE_BASE base 0 1).wr LLC_WIN_SIZE_SIZE_4K 128 0 1).wr LLC_WIN_ATTR_TYPE type 0 1).wr LLC_WIN_GRANT_FN 1 0 1
def pinned1 : Part := (winAt1 2 pinBase).wr LLC_STATUS_WAYS_LOCKED (lockedMask 1)
def control1 : Part := winAt1 1 ctlBase

theorem claimed_none (q : Part) (h : q.slices = []) (a n : Nat) : q.claimed a n = false := by
  have h0 : ∀ i, q.slice i = {} := by
    intro i
    show mget ({} : Slice) q.slices i = {}
    rw [h]
    rfl
  simp [Part.claimed, h0]

/-- An image of 256 or 168 bytes with VERSION 1, IMAGE_ID 1 and its DIGEST (SHA-256 computed outside). -/
def header (n : Nat) : List Byte := leBytes 4 1 ++ leBytes 4 1 ++ List.replicate 128 0 ++
  (if n = 256 then beBytes 32 0x3fc4a77487f8e29121e5964feccda845b2471db1ee756e2ba2b9070031670ad9
   else beBytes 32 0x1c59e2edde1b2b3b7e95ed05fe809195b2f6885555302f22d59257d88a279532) ++ List.replicate (n - 168) 0

/-- 256 bytes can be good; 168 are too few, though the digest holds; 64 hold no digest. -/
theorem test_image_digest : digestOk (header 256) = true ∧ digestOk (header 168) = true ∧ digestOk (bytes 64) = false := by decide +kernel

/-- The image at 1 MiB. -/
def loaded0 (n : Nat) : Part := { open0 with mem := ((header n).mapIdx fun i b => (0x100000 + i, b)).filter fun c => c.2 ≠ 0 }

theorem bytes_loaded0 : (loaded0 168).bytesAt 0x100000 168 = header 168 := by decide +kernel

/-- Step 7 is active, its sequence table at the start of control space. -/
def seqing : Part := { control1.wr TICK_SEQ_BASE (ctlBase / 256) with step := { active := some img0 } }
def seq1 : SeqParams := { slot := 4095, live := true, hold := false, vf := 0, pmapPtr := 0, statePtr := 0, clearFaulted := false }

theorem witness_CopiesAndLoads : (st open0).live ∧ open0.Sound ∧ pinned1.Sound ∧ control1.Sound ∧ (loaded0 256).Sound ∧
    (∀ i ∈ [17, 18, 19, 20, 23, 24, 25, 26], open0.Passes (cmdM 1) i) ∧ 4096 < { cmdM 1 with outLen := 4097 }.outLen ∧
    (ct (noWins open0)).copyCheck 0 0x1000 4096 false ≠ 0 ∧ (ct open0).copyCheck 0 0x1000 4096 false = 0 ∧ 0x1001 % 64 ≠ 0 ∧ (bytes 65).length % 64 ≠ 0 ∧
    (ct (noWins open0)).copyCheck 0 0x1000 64 true ≠ 0 ∧ (ct open0).copyCheck 0 0x1000 64 true = 0 ∧ inCtl 0x1000 = false ∧ (bytes 64).length = 64 ∧
    (ct open0).inPin pinBase = false ∧ inHbm 0x1000 = true ∧ (ct pinned1).inPin pinBase = true ∧ (ct pinned1).inPin (pinBase + 64 - 1) = true ∧
    (ct pinned1).copyCheck 0 0x1000 64 false = 0 ∧ (ct pinned1).copyCheck 0 pinBase 64 true = 0 ∧
    (ct (open0.wr LLC_STATUS_WAYS_LOCKED (lockedMask 1))).copyCheck 0 pinBase 64 true ≠ 0 ∧ pinned1.Passes (cmdM 1) 17 ∧ control1.Passes (cmdM 1) 20 ∧
    inCtl ctlBase = true ∧ inCtl (ctlBase + 71) = true ∧ homeSlice ctlBase = homeSlice (ctlBase + 71) ∧ (ct control1).copyCheck 0 ctlBase 64 true = 0 ∧
    (ct control1).copyCheck 0 (ctlBase + 64) 8 true = 0 ∧ (ct control1).claimed ctlBase 64 = false ∧ (ct control1).claimed (ctlBase + 64) 8 = false := by
  refine ⟨live_of (by decide +kernel), sound_of _ (by decide +kernel), sound_of _ (by decide +kernel), sound_of _ (by decide +kernel),
    sound_of _ ⟨rfl, rfl, rfl, rfl, rfl, rfl⟩,
    fun i hi => passesM_of (l := [17, 18, 19, 20, 23, 24, 25, 26]) (by decide +kernel) _ _ hi, by decide, by decide +kernel, by decide +kernel, by decide,
    by decide, by decide +kernel, by decide +kernel, by decide, by decide, by decide +kernel, by decide, by decide +kernel, by decide +kernel, by decide +kernel,
    by decide +kernel, by decide +kernel, passesM_of (l := [17]) (by decide +kernel) _ _ (by decide), passesM_of (l := [20]) (by decide +kernel) _ _ (by decide),
    by decide, by decide, by decide, by decide +kernel, by decide +kernel, claimed_none _ (by decide +kernel) _ _, claimed_none _ (by decide +kernel) _ _⟩

theorem witness_ImagesAndSequences : open0.hbmIn 0x9000000000 = false ∧ open0.hbmIn (0x100000 + 256 - 1) = true ∧ (noWins open0).granted 0 0x100000 256 false = false ∧
    (ct (loaded0 256)).granted 0 0x100000 256 false = true ∧ leAt (header 256) 0 2 = 1 ∧ leAt (header 256) 4 4 ≠ 0 ∧ (header 256).length = 256 ∧
    (loaded0 256).Passes (cmdM 1) 23 ∧ (∀ im, open0.step.staged = some im → im.id ≠ (5 : W32).toNat) ∧ (∀ i ∈ [27, 28], seqing.Passes (cmdM 1) i) ∧ seqing.Sound ∧
    (st seqing).live ∧ open0.step.active = none ∧ seqing.step.active ≠ none ∧ seq1.slot ≤ 4095 ∧ seq1.vf = 0 ∧ (cmdM 1).cls ≠ .t ∧
    (ct seqing).claimed ((ct seqing).seqBase + 32 * 4095) 32 = false ∧ 3968 + 128 ≤ 4096 := by
  refine ⟨by decide +kernel, by decide +kernel, by decide +kernel, by decide +kernel, by decide +kernel, by decide +kernel, by decide +kernel,
    passesM_of (l := [23]) (by decide +kernel) _ _ (by decide), fun im h => (by cases h),
    fun i hi => passesM_of (l := [27, 28]) (by decide +kernel) _ _ hi, sound_of _ (by decide +kernel), live_of (by decide +kernel), rfl, by decide +kernel, by decide,
    rfl, (fun h => CmdClass.noConfusion h), claimed_none _ (by decide +kernel) _ _, by decide⟩

/-! An image that passes every check of STEP_ACTIVATE: no pod, one END slot for each router, no stream, no weight, no point, no hint. -/

/-- Slot 0 of router `t` is END (3); the sequence table's address is that of control space (byte 4 is 0xA0). -/
@[irreducible] def goodMem : List Host.Cell := ((List.range 3072).map fun t => (0x110000 + 8 * t, (3 : Byte))) ++ [(0x140004, 0xA0)]
def goodPart : Part := { control1 with mem := goodMem, step := { staged := some { img0 with len := 0x50000, schedSlots := 1, pods := 0, sections :=
  [(0x10000, 24576), (0x20000, 24576), (0x30000, 8), (0x40000, 8), (0x41000, 0), (0x42000, 0)] } } }
def goodImage : Image := { img0 with len := 0x50000, schedSlots := 1, pods := 0, sections :=
  [(0x10000, 24576), (0x20000, 24576), (0x30000, 8), (0x40000, 8), (0x41000, 0), (0x42000, 0)] }

theorem mget_map {α : Type} (d v : α) (f : Nat → Nat) (l : List Nat) (m : List (Nat × α)) (n : Nat) :
    mget d ((l.map fun i => (f i, v)) ++ m) n = if ∃ i ∈ l, f i = n then v else mget d m n := by
  induction l with
  | nil => simp
  | cons i l ih =>
    by_cases h : f i = n
    · simp [mget, h]
    · simp [mget, h, ih]

theorem good_byte (x : Nat) : goodPart.byteAt x = if 0x110000 ≤ x ∧ x < 0x116000 ∧ x % 8 = 0 then 3 else if x = 0x140004 then 0xA0 else 0 := by
  have e : goodPart.byteAt x = mget 0 goodMem x := rfl
  rw [e]
  unfold goodMem
  rw [mget_map]
  have h : (∃ i ∈ List.range 3072, 0x110000 + 8 * i = x) ↔ (0x110000 ≤ x ∧ x < 0x116000 ∧ x % 8 = 0) := by
    constructor
    · rintro ⟨i, hi, rfl⟩
      have := List.mem_range.1 hi
      omega
    · rintro ⟨h1, h2, h3⟩
      exact ⟨(x - 0x110000) / 8, List.mem_range.2 (by omega), by omega⟩
  simp only [h, mget]
  split
  · rfl
  · split
    · rename_i h5; subst h5; rfl
    · rename_i h5; rw [if_neg (fun h => h5 h.symm)]

theorem zeros (n : Nat) : leNat (List.replicate n 0) = 0 := by
  induction n with
  | zero => rfl
  | succ n ih => rw [List.replicate_succ, leNat, ih]; rfl

/-- Bytes outside the schedules and the sequence address are zero. -/
theorem good_zero (x n : Nat) (h : ∀ i, i < n → ¬ (0x110000 ≤ x + i ∧ x + i < 0x116000) ∧ x + i ≠ 0x140004) : leNat (goodPart.bytesAt x n) = 0 := by
  have : goodPart.bytesAt x n = List.replicate n 0 := by
    unfold Part.bytesAt
    rw [List.eq_replicate_iff]
    refine ⟨by simp, fun b hb => ?_⟩
    obtain ⟨i, hi, rfl⟩ := List.mem_map.1 hb
    have := h i (List.mem_range.1 hi)
    rw [good_byte, if_neg (by omega), if_neg this.2]
  rw [this]
  exact zeros n

theorem good_slot (t : Nat) (h : t < 3072) : (goodPart.schedule goodImage t) = [3] := by
  have h0 : goodPart.imgAt goodImage secHops (8 * t) 8 = 3 := by
    show leNat (goodPart.bytesAt (0x110000 + 8 * t) 8) = 3
    have e : goodPart.bytesAt (0x110000 + 8 * t) 8 = [3, 0, 0, 0, 0, 0, 0, 0] := by
      unfold Part.bytesAt
      simp only [show List.range 8 = [0, 1, 2, 3, 4, 5, 6, 7] from rfl, List.map_cons, List.map_nil, good_byte]
      rw [if_pos (by omega), if_neg (by omega), if_neg (by omega), if_neg (by omega), if_neg (by omega), if_neg (by omega), if_neg (by omega), if_neg (by omega),
        if_neg (by omega), if_neg (by omega), if_neg (by omega), if_neg (by omega), if_neg (by omega), if_neg (by omega), if_neg (by omega)]
    rw [e]
    rfl
  have h1 : goodImage.schedSlots * t + 0 = t := by simp [goodImage]
  show [BitVec.ofNat 64 (goodPart.imgAt goodImage secHops (8 * (goodImage.schedSlots * t + 0)) 8)] = [3]
  rw [h1, h0]
  rfl

theorem good_sched : goodPart.schedBad goodImage = false := by
  have h0 : (maskPods goodImage.pods).any (inMask goodPart.repair.retiredPods) = false := by decide +kernel
  unfold Part.schedBad
  rw [h0, Bool.false_or, List.any_eq_false]
  intro t ht
  have ht := List.mem_range.1 ht
  rw [good_slot t ht]
  have k : slotKind (3 : W64) = 3 := by decide
  have b : badSlot t (inMask goodImage.pods (podOf t)) 0 3 = false := rfl
  have d : goodPart.deadRoute t 3 = false := rfl
  have z : ([3] : List W64).getD (goodImage.schedSlots - 1) 0 = 3 := rfl
  simp only [List.mapIdx_cons, List.mapIdx_nil, List.any_cons, List.any_nil, b, d, k, z]
  decide

theorem good_streamOff (t : Nat) (h : t < 3072) : goodPart.streamOff goodImage t = 0 :=
  good_zero (0x100000 + 0x20000 + 8 * t) 4 (by omega)

theorem good_image : goodPart.imageBad goodImage = false := by
  have h1 : goodPart.badHeader goodImage = false := by
    have a : leNat (goodPart.bytesAt (goodImage.addr + 2) 2) = 0 := good_zero _ _ (by simp only [goodImage, img0]; omega)
    have b : leNat (goodPart.bytesAt (goodImage.addr + 0xA8) 0x58) = 0 := good_zero _ _ (by simp only [goodImage, img0]; omega)
    unfold Part.badHeader
    rw [a, b]
    decide +kernel
  have h2 : (List.range 3072).any (goodPart.badStream goodImage) = false := by
    rw [List.any_eq_false]
    intro t ht
    have ht := List.mem_range.1 ht
    have a : goodPart.imgAt goodImage secStreams (8 * t + 4) 4 = 0 := good_zero (0x100000 + 0x20000 + (8 * t + 4)) 4 (by omega)
    simp [Part.badStream, good_streamOff t ht, a]
  have h3 : goodPart.weightCount goodImage = 0 := good_zero (0x100000 + 0x30000 + 0) 8 (by omega)
  have h4 : goodPart.seqAddr goodImage = ctlBase := by
    show leNat (goodPart.bytesAt 0x140000 8) = ctlBase
    have e : goodPart.bytesAt 0x140000 8 = [0, 0, 0, 0, 0xA0, 0, 0, 0] := by
      unfold Part.bytesAt
      simp only [show List.range 8 = [0, 1, 2, 3, 4, 5, 6, 7] from rfl, List.map_cons, List.map_nil, good_byte]
      rfl
    rw [e]
    decide
  have h5 : goodPart.badSeq goodImage = false := by
    unfold Part.badSeq
    simp only [h4]
    decide +kernel
  have h6 : goodImage.tiles.length = 0 := by
    unfold Image.tiles
    rw [List.length_eq_zero_iff, List.filter_eq_nil_iff]
    intro t _
    simp [goodImage, img0, inMask]
  unfold Part.imageBad
  rw [h1, h2, h3, h5, h6]
  decide

theorem witness_StepActivate : goodPart.Passes (cmdM 1) 24 ∧ goodPart.step.staged = some goodImage ∧ goodImage.id = (1 : W32).toNat ∧
    (ct goodPart).imageBad goodImage = false ∧ (ct goodPart).schedBad goodImage = false ∧ (st goodPart).live ∧ goodPart.Sound := by
  have e : ct goodPart = goodPart := by
    have : (cmdM 1).cls = .m ∨ (cmdM 1).cls = .t := .inl rfl
    rw [ct, Part.counted, if_pos this]
  rw [e]
  exact ⟨passesM_of (l := [24]) (by decide +kernel) _ _ (by decide), rfl, rfl, good_image, good_sched, live_of (by decide +kernel), sound_of _ ⟨rfl, rfl, rfl, rfl, rfl, rfl⟩⟩

/-! ## Limits, repair, firmware (15, 17, 18, 19) -/

/-- Row 0 of die 0 has its column 3 bypassed; repairs of pod 0, and of a bridge, wait. -/
def repaired : Part := { open0 with repair := { bypass := [(0, 3)], pending := [.pod 0 none], joins := [(ukBridge, 1)], retiredPods := 2 } }

theorem witness_LimitsAndRepairCommands : (st open0).live ∧ (∀ i ∈ [36, 37, 39], open0.Passes (cmdM 1) i) ∧ (∀ i ∈ [39], repaired.Passes (cmdM 1) i) ∧
    (open0.setTile 0 { testing := true }).Passes (cmdM 1) 39 ∧ repairOk 1 3072 1 = false ∧ repairOk 1 3071 4 = false ∧
    ((open0.setTile 0 { testing := true }).tile 0).testing = true ∧ ((open0.setTile 0 { work := .step }).tile 0).work ≠ .idle ∧ (open0.tile 0).testing = false ∧
    (open0.tile 0).work = .idle ∧ repaired.spareFree (dieOf 0) (rowOf 0) = false ∧ repaired.mapOutWaits 0 = false ∧
    ({ open0 with repair := { open0.repair with pending := [.bypass 0 0 3 0 none] } } : Part).mapOutWaits 0 = true ∧ open0.spareFree (dieOf 3071) (rowOf 3071) = true ∧
    open0.bypassAt (dieOf 0) (rowOf 0) = 8 ∧ repaired.bypassAt (dieOf 0) (rowOf 0) ≠ 8 ∧ repaired.bypassNext (dieOf 0) (rowOf 0) = none ∧
    (.pod 0 none : PendingRepair) ∈ repaired.repair.pending ∧ inMask repaired.repair.retiredPods 1 = true ∧ inMask open0.repair.retiredPods 191 = false ∧
    open0.repair.pending = [] ∧ (regionPods 47).all (inMask open0.repair.retiredPods) = false ∧ open0.repair.retiredDies.getLsbD 11 = false ∧
    (ct open0).rd LLC_STATUS_STATE 255 = 0 ∧ (ct (open0.wr LLC_STATUS_STATE 1 255)).rd LLC_STATUS_STATE 255 ≠ 0 ∧ (ukBridge, 1) ∈ repaired.repair.joins ∧
    (ukBond, 1) ∉ repaired.repair.joins := by
  refine ⟨live_of (by decide +kernel), fun i hi => passesM_of (l := [36, 37, 39]) (by decide +kernel) _ _ hi,
    fun i hi => passesM_of (l := [39]) (by decide +kernel) _ _ hi, passesM_of (l := [39]) (by decide +kernel) _ _ (by decide), by decide +kernel⟩

/-- A firmware object of 416 bytes with a good header. -/
def fwObject : List Byte := leBytes 8 (1 + 2 ^ 16 + 3 * 2 ^ 32) ++ leBytes 4 416 ++ List.replicate 404 0

/-- Whether an object verifies comes down to its signature, which is not modelled (log 9). -/
theorem witness_ObjectVerifies (h : Config.signatureOk true fwObject = true) : ({} : Serial).verify 0 fwObject = true ∧ leAt fwObject 0 2 = 1 := by
  have e : fwObject.take (leAt fwObject 8 4) = fwObject := by decide +kernel
  have t : decide (leAt fwObject 0 2 ≠ 2) = true := by decide +kernel
  have o : (({} : Serial).headOk fwObject && decide (leAt fwObject 8 4 ≤ fwObject.length)) = true ∧ leAt fwObject 0 2 = 1 ∧
    decide (0 ≤ leAt fwObject 4 4) = true := by decide +kernel
  refine ⟨?_, o.2.1⟩
  have k : decide ((1 : Nat) ≠ 2) = true := rfl
  simp only [Serial.verify, e, o.1, o.2.1, k, h, o.2.2]
  rfl

/-- The update buffer being written; the firmware switching; context 0 running since time 0. -/
def slotBusy : Part := open0.wr HUSK_FW_STATUS_SLOT_STATE 1
def switching (t : Nat) : Part := { open0 with now := t, repair := { fwOld := true, fwNewVersion := 3, fwIssue := some (cmdM 1) } }
def running0 (t : Nat) : Part := { (open0.wr HUSK_WDOG_RUN_MASK 1).wr HUSK_WDOG_TIMEOUT_MS 50 with now := t }
/-- Firmware window 0 covers 64 KiB of HBM, or of control space, or of the arrays. -/
def fwWin (a : Nat) : Part :=
  (((((running0 0).wr HUSK_FW_WIN0_VALID 1).wr HUSK_FW_WIN0_BASE a).wr HUSK_FW_WIN1_SIZE_4K 16).wr HUSK_FW_WIN1_READ 1).wr HUSK_FW_WIN1_WRITE 1

theorem witness_FirmwareAndWatchdog : (st open0).live ∧ (∀ i ∈ [42, 43], open0.Passes (cmdM 1) i ∧ slotBusy.Passes (cmdM 1) i) ∧
    (ct slotBusy).rd HUSK_FW_STATUS_SLOT_STATE = 1 ∧ (ct open0).rd HUSK_FW_STATUS_SLOT_STATE ≠ 1 ∧ 9 % 8 ≠ 0 ∧ 0x1000000 < 0x1000000 + (bytes 1).length ∧
    0xFFFFF8 + (bytes 8).length ≤ 0x1000000 ∧ ({} : Serial).verify 0 (ct open0).updBytes = false ∧ open0.repair.fwIssue = none ∧ open0.boot.slotIssue = none ∧
    slotBusy.rd HUSK_FW_STATUS_SLOT_STATE = 1 ∧ open0.repair.fwOld = false ∧ (switching 0).repair.fwOld = true ∧
    max 0 (switching (ms 50 - 1)).now < (switching 0).repair.fwSince + ms 50 ∧ (switching 0).repair.fwSince + ms 50 ≤ max 0 (switching (ms 50)).now ∧
    open0.ctxRuns 0 = false ∧ (running0 0).ctxRuns 0 = true ∧ (running0 0).ctxLimit 0 = ms 50 ∧ (running0 0).stage = 7 ∧
    ((running0 0).ctxStarts 0).fwGranted false 0 8 = false ∧ ((fwWin 0).ctxStarts 0).fwGranted false 0xFFF8 8 = true ∧
    ((fwWin csBase).ctxStarts 0).fwGranted false (csBase + 8) 8 = true ∧ (((fwWin csBase).ctxStarts 0).csRead 8 8).isSome = true ∧ inCs csBase = true ∧
    inCs 0xFFF8 = false ∧ ((fwWin 0).ctxStarts 0).arrayAt 0xFFF8 8 = none ∧ ((fwWin 0).ctxStarts 0).hasHome 0xFFFF = true ∧
    ((fwWin arrBase).ctxStarts 0).arrayAt arrBase 8 = some (0, 0) ∧ inCs arrBase = false ∧ ((fwWin arrBase).ctxStarts 0).fwGranted true arrBase 8 = true ∧
    ((fwWin 0).ctxStarts 0).fwGranted true 0xFFF8 8 = true ∧ inHusk 0xFFF8 8 = false ∧ inHusk (csBase + 0x2FFFF) 1 = true ∧
    inHusk (csBase + 0x1FFFC) 8 = true ∧ inHusk (csBase + 0x30000) 8 = false ∧
    (((fwWin (csBase + 0x60000)).ctxStarts 0).csWrite 0x60010 8 1).isSome = true := by
  refine ⟨live_of (by decide +kernel), fun i hi => ⟨passesM_of (l := [42, 43]) (by decide +kernel) _ _ hi, passesM_of (l := [42, 43]) (by decide +kernel) _ _ hi⟩,
    by decide +kernel⟩

/-! ## Power and temperatures (17) -/

def railIn (x : RailThr) : Part := { part0 with power := { rails := if x = {} then [] else [(0, x)] } }

theorem witness_ThrottleAndDroop : (st part0).live ∧ part0.rd PWR_RAIL0_LIMIT_DA 0 0 < 3001 ∧ 3000 ≤ part0.rd PWR_RAIL0_LIMIT_DA 0 0 ∧ (part0.rail 0).beyond = none ∧
    (part0.rail 0).on = false ∧ ((railIn { on := true, beyond := some 0 }).rail 0).beyond = some 0 ∧ ((railIn { on := true, beyond := some 0 }).rail 0).on = true ∧
    max 0 part0.now < 0 + us 1 ∧ 0 + us 1 ≤ max (us 1) part0.now ∧ ((railIn { on := true, low := some 0 }).rail 0).low = some 0 ∧
    max (us 10 - 1) part0.now < 0 + us 10 ∧ 0 + us 10 ≤ max (us 10) part0.now ∧ (part0.rail 12).on = false ∧
    (({ part0 with power := { rails := [(12, { on := true })] } } : Part).rail 12).on = true ∧
    (([0, 0, 0, 0, 0, 0, 0] : List Nat).filter fun t => 0 < t + ms 1).length = 7 ∧ (part0.region 0).barred = false ∧
    (({ part0 with power := { regions := [(0, { barred := true, barEnd := 5 })] } } : Part).region 0).barred = true ∧
    (regionPods 0).all (inMask part0.repair.retiredPods) = false ∧
    (regionPods 0).all (inMask ({ part0 with repair := { retiredPods := -1 } } : Part).repair.retiredPods) = true :=
  ⟨live_of (by decide +kernel), by decide +kernel⟩

theorem witness_ClocksRailsAndTemperatures : (st part0).live ∧ part0.hintSet = [] ∧
    ({ part0 with power := { hints := [0x100] } } : Part).hintSet = [0x100] ∧ getB 0x100 0 8 = 0 ∧ getB 0x100 8 2 = 1 ∧
    part0.rd PWR_CFG_LIMIT_W < (part0.rd PWR_CFG_LIMIT_W + 1) + 0 ∧ part0.power.caps = 16 ∧
    (∃ x ∈ critSensors [(0, 110, 20)] [] 0, (part0.wr PWR_THERM_T_CRIT 110).rd PWR_THERM_T_CRIT ≤ x) ∧
    (∃ x ∈ ([125] : List Nat), (part0.wr PWR_THERM_T_TRIP 125).rd PWR_THERM_T_TRIP ≤ x) ∧
    (∀ x ∈ ([124] : List Nat), x < (part0.wr PWR_THERM_T_TRIP 125).rd PWR_THERM_T_TRIP) :=
  ⟨live_of (by decide +kernel), by decide +kernel⟩

/-! ## HBM and weight repair (12) -/

/-- A part whose registers all hold zero, in the Running stage with the 4 GiB window 0. -/
def bare : Part :=
  ((({ ctl := [] } : Part).wr HUSK_STATUS_STAGE 7).wr LLC_WIN_BASE_VALID 1).wr LLC_WIN_SIZE_SIZE_4K 0x100000

/-- Every stack in service. -/
def inService : Part := foldN 24 (bare.wr HBM_CFG_SCRUB_HOURS 24) fun h p => p.wr HBM_STATUS_STATE 2 h

theorem channel_below (a : Nat) : inService.channelOf a / 32 < 24 := by
  have hs : inService.moved736 (a / 0x100000) = false := by
    have e : inService.hbm = {} := by decide +kernel
    rw [Part.moved736, e]
    rfl
  have h : inService.channelOf a < 768 := by
    simp only [Part.channelOf, hs, Bool.false_and, Bool.false_eq_true, if_false]
    cases e : (List.range 768).find? fun c => decide (rankOf 768 (Config.channelOrder false (a / 0x100000)) c =
      rankOf 4096 (Config.channelKey false (a / 0x100000)) (a / 256 % 4096) % 768) with
    | none => exact Nat.zero_lt_succ _
    | some c => exact List.mem_range.1 (List.mem_of_find?_eq_some e)
  omega

/-- Stack 0 in a state, its training at a point. -/
def stackIn (s n : Nat) : Part := { bare.wr HBM_STATUS_STATE s 0 with hbm := { train := if n = 0 then [] else [(0, n)] } }
def migrating (n : Nat) (m : List Nat) : Part :=
  { ((bare.wr LLC_WIN_ATTR_SHARED_IMM 1).wr LLC_WIN_SIZE_SIZE_4K (256 * 565248)).wr HBM_MIGRATE_STATE n with hbm := { lost := some 0, moved := m } }

theorem rd_ctl {p q : Part} (h : p.ctl = q.ctl) (f : Fld) (i j : Nat) : p.rd f i j = q.rd f i j := by
  unfold Part.rd Part.reg
  rw [h]

/-- Only registers decide the rank of a block. -/
theorem rank_ctl {p q : Part} (h : p.ctl = q.ctl) (b : Nat) : p.blockRank b = q.blockRank b := by
  unfold Part.blockRank
  have h1 : ∀ n, p.winValid n = q.winValid n := fun n => by unfold Part.winValid; rw [rd_ctl h]
  have h2 : ∀ n, p.winBase n = q.winBase n := fun n => rd_ctl h ..
  have h3 : ∀ n, p.winSize n = q.winSize n := fun n => by unfold Part.winSize; rw [rd_ctl h]
  have h4 : ∀ n, p.winType n = q.winType n := fun n => rd_ctl h ..
  have h5 : ∀ n, p.winBacking n = q.winBacking n := fun n => rd_ctl h ..
  have h6 : p.winShared = q.winShared := funext fun n => by unfold Part.winShared; rw [rd_ctl h]
  simp only [h1, h2, h3, h4, h5, h6, rd_ctl h]

theorem first_of (n : Nat) (c : Nat → Bool) (r : Nat → Nat) (b : Nat) (hr : r b = 0) (hb : b < n) (hn : c b = true) (hj : ∀ j, j < b → c j = false) :
    [0, 1, 2].findSome? (fun k => ((List.range n).filter c).find? fun i => r i = k) = some b := by
  have e : ((List.range n).filter c).find? (fun i => decide (r i = 0)) = some b := by
    rw [List.find?_filter, List.find?_range_eq_some]
    refine ⟨?_, List.mem_range.2 hb, fun j h => ?_⟩
    · rw [hn, hr]
      rfl
    · rw [hj j h]
      rfl
  simp only [List.findSome?_cons, e]

/-- The next block is the first one not moved when a SHARED_IMM window lies over it. -/
theorem next_of {p : Part} {b : Nat} (hr : p.blockRank b = 0) (hb : b < stayBlocks) (hn : p.hbm.moved.contains b = false)
    (hj : ∀ j, j < b → p.hbm.moved.contains j = true) : p.nextBlock = some b :=
  first_of stayBlocks (fun b => !p.hbm.moved.contains b) p.blockRank b hr hb (by rw [hn]; rfl) fun j h => by rw [hj j h]; rfl

theorem next_first : (migrating 2 []).nextBlock = some 0 :=
  next_of (by decide +kernel) (by decide) rfl (fun j h => absurd h (Nat.not_lt_zero j))

/-- Every block that stays but the last. -/
@[irreducible] def most : List Nat := List.range 565247

theorem most_mem (j : Nat) : j ∈ most ↔ j < 565247 := by
  unfold most
  exact List.mem_range

theorem most_length : most.length = 565247 := by
  unfold most
  exact List.length_range

theorem moved_migrating (m : List Nat) : (migrating 2 m).hbm.moved = m := rfl

theorem next_last : (migrating 2 most).nextBlock = some 565247 := by
  refine next_of ((rank_ctl (rfl : (migrating 2 most).ctl = (migrating 2 []).ctl) _).trans (by decide +kernel)) (by decide) ?_ fun j hj => ?_
  · rw [moved_migrating, Bool.eq_false_iff]
    intro h
    exact absurd ((most_mem _).1 (List.contains_iff_mem.1 h)) (Nat.lt_irrefl _)
  · rw [moved_migrating]
    exact List.contains_iff_mem.2 ((most_mem j).2 hj)

theorem witness_HbmRefreshScrubAndStacks : (st inService).live ∧ inService.hbmIn 0x1000 = true ∧ inService.isDead 0x1000 = false ∧
    inService.rd HBM_CFG_SCRUB_HOURS ≠ 0 ∧ inService.rd HBM_STATUS_STATE (inService.channelOf 0x1000 / 32) = 2 ∧ inService.poison = [] ∧ inService.hbm.marks = [] ∧
    (stackIn 0 0).rd HBM_STATUS_STATE 0 = 0 ∧ (stackIn 2 0).rd HBM_STATUS_STATE 0 ≠ 0 ∧ (5, 6) ∉ bare.hbm.copying ∧
    (767, 6) ∈ ({ bare with hbm := { copying := [(767, 6)] } } : Part).hbm.copying ∧ (stackIn 0 0).stage = 7 ∧ (stackIn 0 0).hbm.lost ≠ some 0 ∧
    (∀ n ∈ [1, 2, 3, 4], mget 0 (stackIn 1 n).hbm.train 0 = n) ∧ (stackIn 2 0).hbm.evac = none ∧ (stackIn 2 0).hbm.lost = none ∧
    (migrating 1 []).rd HBM_STATUS_STATE 0 ≠ 4 ∧ (migrating 1 []).hbm.lost ≠ none ∧ (migrating 0 []).rd HBM_MIGRATE_STATE ≠ 1 ∧
    (migrating 1 []).rd HBM_MIGRATE_STATE = 1 ∧ (migrating 1 []).shedUsed = false ∧ (bare.wr LLC_WIN_BASE_BASE 0x8A00000000).shedUsed = true ∧
    (migrating 2 []).rd HBM_MIGRATE_STATE = 2 ∧ (migrating 2 []).nextBlock = some 0 ∧ (migrating 2 []).hbm.moved.length + 1 < stayBlocks ∧
    (migrating 2 most).nextBlock = some 565247 ∧ (migrating 2 most).hbm.moved.length + 1 = stayBlocks ∧
    (∀ z c, (migrating 2 most).hbm.evac = some (z, c) → z < 24) ∧ (stackIn stTest 0).rd HBM_STATUS_STATE 0 = stTest ∧
    (stackIn 2 0).rd HBM_STATUS_STATE 0 ≠ stTest ∧ bare.rd HBM_TG_CTL_BUSY 0 0 = 0 ∧ (bare.wr HBM_TG_CTL_BUSY 1 0 15).rd HBM_TG_CTL_BUSY 0 15 = 1 ∧
    bare.rd HBM_TG_FAIL_VALID 0 0 = 0 ∧ (bare.wr HBM_TG_FAIL_VALID 1 0 0).rd HBM_TG_FAIL_VALID 0 0 = 1 := by
  have hz : ∀ z, z < 24 → inService.rd HBM_STATUS_STATE z = 2 := by decide +kernel
  refine ⟨live_of (by decide +kernel), by decide +kernel, by decide +kernel, by decide +kernel, hz _ (channel_below _), by decide +kernel, by decide +kernel,
    by decide +kernel, by decide +kernel, by decide +kernel, by decide +kernel, by decide +kernel, by decide +kernel, by decide +kernel, by decide +kernel,
    by decide +kernel, by decide +kernel, by decide +kernel, by decide +kernel, by decide +kernel, by decide +kernel, by decide +kernel, by decide +kernel,
    next_first, by decide +kernel, next_last, ?_, fun z c h => (nomatch h), by decide +kernel⟩
  rw [moved_migrating, most_length]
  rfl

/-- A repair of block 0x1000 of window 0 with both sources, at its start, a time later, waiting. -/
def repairing (i : Bool) (t : Nat) : Part :=
  { (bare.wr HBM_GOLD_SRC0_KIND 1).wr HBM_GOLD_SRC1_KIND 2 with hbm := { repairs := [{ block := 0x1000, win := 0, t0 := 0, idle := i }] }, now := t }
def repair0 (i : Bool) : BlockRepair := { block := 0x1000, win := 0, t0 := 0, idle := i }

theorem witness_WeightRepair : (st (repairing false 0)).live ∧ bare.repairOf 0x1000 = none ∧ (repairing false 0).repairOf 0x1000 = some (repair0 false) ∧
    (repairing true 0).repairOf 0x1000 = some (repair0 true) ∧ (repair0 false).win < 64 ∧ (bytes 4096).length = 4096 ∧
    max (repairing false repairLimit).now 0 ≤ (repair0 false).t0 + repairLimit ∧ (repair0 false).t0 + repairLimit < max (repairing false (repairLimit + 1)).now 0 ∧
    (repairing false 0).unmoved 0x1000 = false ∧
    ({ repairing false 0 with hbm := { (repairing false 0).hbm with lost := some 0 } } : Part).unmoved 0x1000 = true ∧ 0x1000 + 4096 ≤ hbmEnd ∧
    (repairing false 0).dead = [] ∧ (repairing false 0).dirty = [] ∧ (repairing false 0).hbm.lost = none ∧ (repairing false 0).hbm.waiting = [] ∧
    (repairing false 0).goldKindOf 0 1 ≠ 0 ∧ (repairing false 0).goldKindOf 0 0 ≠ 0 ∧ (repair0 false).since + ms 500 ≤ max (repairing false (ms 500)).now 0 ∧
    max (repairing false (ms 500 - 1)).now 0 < (repair0 false).since + ms 500 ∧ (repair0 true).since + ms 10 ≤ max (repairing true (ms 10)).now 0 :=
  ⟨live_of (by decide +kernel), by decide +kernel⟩

/-! ## Registers, reset, boot, management port, JTAG (00, 19, 20) -/

theorem witness_RegisterAccess : (st part0).pins.inReset = false ∧ csAligned 0x60010 6 = false ∧ csAligned 0x60012 4 = false ∧ (csFind 0xFFFFF8).isNone = true ∧
    csAligned 0xFFFFF8 8 = true ∧ csAligned 0x60010 8 = true ∧ csAligned 0x60014 4 = true ∧
    (csFind 0x60010).any (fun h => h.row.reg = reg_UCI_CFG && (part0.csInst h).isSome) = true ∧
    (csFind (0x1000000 + 0x1000 * 8)).any (fun h => h.block = 10 && (part0.csInst h).isNone) = true ∧
    (csFind (0x1000000 + 0x1000 * 9)).any (fun h => part0.csInst h = some 8) = true ∧ part0.fatal = false ∧
    reg_UCI_CFG ∉ [reg_TICK_CTL, reg_TL_EVENTS, reg_CMD_ADMQ_SQ, reg_CMD_ADMQ_CQ, reg_CMD_ADMQ_CFG, reg_BLK_CFG, reg_UCI_MBX_SEND, reg_HBM_TG_CTL, reg_PWR_CFG,
      reg_PWR_THERM, reg_PWR_RAIL0] ∧ dead0.pins.inReset = false ∧ dead0.part.fatal = true := by decide +kernel

/-- TICK_US 250 with a guard window of 20 µs, at the low ends of R79, and one out of range. -/
def ctlLow : W64 := 250 + 20 * 2 ^ 20 + 2 ^ 36 + 2 ^ 40
def ctlHigh : W64 := 100000 + 2000 * 2 ^ 20 + 2 ^ 36 + 2 ^ 40

theorem witness_RegisterCommands : (st part0).live ∧ part0.rd TICK_STATUS_ROLE = 0 ∧ (part0.wr TICK_STATUS_ROLE 1).rd TICK_STATUS_ROLE = 1 ∧
    (∀ v ∈ [ctlLow.toNat, ctlHigh.toNat], 250 ≤ v % 2 ^ 17 ∧ v % 2 ^ 17 ≤ 100000 ∧ 20 ≤ v / 2 ^ 20 % 2 ^ 11 ∧ v / 2 ^ 20 % 2 ^ 11 ≤ 2000 ∧
      2 * (v / 2 ^ 20 % 2 ^ 11) ≤ v % 2 ^ 17 ∧ 1 ≤ v / 2 ^ 36 % 4 ∧ 1 ≤ v / 2 ^ 40 % 16) ∧ ¬ 250 ≤ getB (249 : W64) 0 17 ∧
    part0.rd CMD_ADMQ_CFG_ENABLE = 0 ∧ (part0.wr CMD_ADMQ_CFG_ENABLE 1).rd CMD_ADMQ_CFG_ENABLE = 1 ∧ (2 ^ 32 : W64).getLsbD 32 = true ∧
    (0 : W64).getLsbD 32 = false ∧ part0.rd BLK_CFG_ENABLE 0 = 0 ∧ part0.rd BLK_STATUS_STATE 0 = 0 ∧
    ((part0.wr HUSK_PORTS_ENABLE 1).rd HUSK_PORTS_ENABLE).testBit 0 = true ∧ ((part0.wr HUSK_PORTS_ENABLE 0).rd HUSK_PORTS_ENABLE).testBit 0 = false ∧
    (part0.wr BLK_CFG_ENABLE 1 0).rd BLK_CFG_ENABLE 0 = 1 :=
  ⟨live_of (by decide +kernel), by decide +kernel⟩

/-- In a stage of the boot, with a serial memory. -/
def booting (n : Nat) (x : Serial) : State := { part := part0.wr HUSK_STATUS_STAGE n, serial := x }

theorem witness_PackageReset : (part0.wr HUSK_FW_STATUS_SLOT_STATE 1).rd HUSK_FW_STATUS_SLOT_STATE = 1 ∧ part0.rd HUSK_FW_STATUS_SLOT_STATE ≠ 1 ∧
    (∀ n ∈ [1, 2, 3], ((part0.wr HUSK_FW_STATUS_SLOT_STATE 1).wr HUSK_FW_STATUS_BUF_TYPE n).rd HUSK_FW_STATUS_BUF_TYPE = n) ∧ (st part0).pins.porN = true ∧
    held0.pins.porN = false ∧ (st part0).live ∧ part0.repair.retiredDies.getLsbD 11 = false ∧
    ({ part0 with repair := { retiredDies := 1 } } : Part).repair.retiredDies.getLsbD 0 = true ∧ (11 : RailId).val < 12 ∧ 12 ≤ (12 : RailId).val :=
  ⟨by decide +kernel, by decide +kernel, by decide +kernel, rfl, rfl, live_of (by decide +kernel), by decide +kernel⟩

theorem witness_BootStages : (booting 1 {}).pins.inReset = false ∧ (∀ n ∈ [1, 2, 3, 4, 5, 6, 7, 8], (booting n {}).part.stage = n) ∧
    ({ headerOk := false } : Serial).headerOk = false ∧ ({} : Serial).headerOk = true ∧ ({} : Serial).cfgA.usable = true ∧
    (({} : Serial).cfgB.usable = true → ({} : Serial).cfgB.version ≤ ({} : Serial).cfgA.version) ∧
    ({ cfgB := { version := 2 } } : Serial).cfgB.usable = true ∧ ¬ ({ cfgB := { version := 2 } } : Serial).cfgB.version ≤ ({} : Serial).cfgA.version ∧
    ({ cfgA := { valid := false }, cfgB := { valid := false } } : Serial).cfgA.usable = false ∧
    ({ cfgA := { valid := false }, cfgB := { valid := false } } : Serial).cfgB.usable = false ∧ ({} : Serial).identityOk = true ∧
    ({ identityOk := false } : Serial).identityOk = false ∧ (booting 7 {}).part.repair.pending = [] ∧ (booting 7 {}).part.fatal = false ∧
    (booting 7 {}).part.spareFree (dieOf 0) (rowOf 0) = true ∧ (st repaired).part.spareFree (dieOf 0) (rowOf 0) = false := by decide +kernel

/-- The management port in a state of its own. -/
def port0 (m : Mgmt) : Part := { open0 with mgmt := m }
/-- A packet of class B with an opcode that R661 does not list. -/
def oddPacket : List Byte := leBytes 2 0xFFFF ++ List.replicate 62 0

theorem witness_ManagementPortAndJtag : (st (port0 {})).pins.inReset = false ∧ (port0 { busy := true }).mgmt.busy = true ∧ (port0 {}).mgmt.busy = false ∧
    (0x80 : BitVec 8).getLsbD 7 = true ∧ (0x80 : BitVec 8).toNat % 64 = 0 ∧ (0xBF : BitVec 8).toNat % 64 ≠ 0 ∧ (0x01 : BitVec 8).getLsbD 7 = false ∧
    (port0 { rxOpen := true, rxSeq := 1 }).mgmt.rxOpen = true ∧ (0x01 : BitVec 8).toNat % 64 = (port0 { rxOpen := true, rxSeq := 1 }).mgmt.rxSeq ∧
    (0x3F : BitVec 8).toNat % 64 = (port0 { rxOpen := true, rxSeq := 63 }).mgmt.rxSeq ∧ (0xC0 : BitVec 8).getLsbD 6 = true ∧ (0x80 : BitVec 8).getLsbD 6 = false ∧
    (port0 { i3c := true }).mgmt.i3c = true ∧ (port0 {}).stage = 7 ∧ badPacket oddPacket = false ∧ opIndex (leAt oddPacket 0 2) = none ∧
    (port0 { replyReady := true, reply := bytes 241 }).mgmt.replyReady = true ∧ ((bytes 241).drop (240 * 0)).length = 241 ∧
    ((bytes 241).drop (240 * 1)).length = 1 ∧ (port0 {}).mgmt.dynAddr = none ∧ (port0 { dynAddr := some 3 }).mgmt.dynAddr ≠ none ∧
    (port0 { mgAlertN := false }).mgmt.mgAlertN = false ∧ (port0 {}).mgmt.mgAlertN = true := by decide +kernel

theorem witness_ImagePush : open0.Passes (cmdM 1) 44 ∧ open0.fatal = false ∧ (open0.wr HUSK_STATUS_STAGE 8).stage = 8 ∧ (cmdB 0x0805).cls = .b ∧ 9 % 8 ≠ 0 ∧
    0xFFFFF8 + (bytes 8).length ≤ 0x1000000 ∧ 0x1000000 < 0x1000000 + (bytes 1).length ∧
    ¬ (32 ≤ (bufBytes (putBuf [] 0 (bytes 8)) 8).length ∧ leAt (bufBytes (putBuf [] 0 (bytes 8)) 8) 8 4 ≤ (bufBytes (putBuf [] 0 (bytes 8)) 8).length) ∧
    32 ≤ (bufBytes (putBuf [] 0 (bytes 32)) 32).length ∧ leAt (bufBytes (putBuf [] 0 (bytes 32)) 32) 8 4 ≤ (bufBytes (putBuf [] 0 (bytes 32)) 32).length ∧
    ({} : Serial).verify 0 (bufBytes (putBuf [] 0 (bytes 32)) 32) = false :=
  ⟨passesM_of (l := [44]) (by decide +kernel) _ _ (by decide), by decide +kernel⟩

theorem witness_FragmentErrors : (st (port0 {})).pins.inReset = false ∧ (port0 {}).mgmt.busy = false ∧ (0x81 : BitVec 8).getLsbD 7 = true ∧
    (0x81 : BitVec 8).toNat % 64 ≠ 0 ∧ (port0 {}).mgmt.i3c = false := by decide +kernel

/-! ## Results the manual states -/

/-- R817: the revision is 4 × REV_LETTER + REV_STEP; letter 1 and step 2 give 6. -/
theorem test_idcode : (match exec .idcode (st ((part0.wr GLOBAL_PART_REV_LETTER 1).wr GLOBAL_PART_REV_STEP 2)) with
    | .next t => t.part.out
    | _ => []) = [.jtag 0x6122496B] := by decide +kernel

/-- R819: after a POR_N pulse the machine is at reset. -/
theorem test_por : (match exec .porNAssert (st part0) with
    | .next t => (t.part.stage, t.pins.inReset)
    | _ => (0, false)) = (State.reset.part.stage, true) := by decide +kernel

/-- Commands run first in, first out; an empty queue idles. -/
theorem test_queue : (match step { st part0 with pending := [.extest, .clamp] } with
    | .next t => (t.pending, t.pins.jtag)
    | _ => ([], .idcode)) = ([.clamp], .extest) := by decide +kernel

/-- At reset no command waits, no memory is listed, the part is in no stage of the boot yet. -/
theorem test_state_reset : State.reset.pending = [] ∧ State.reset.memoryWf ∧ State.reset.part.mem = [] := ⟨rfl, rfl, rfl⟩

end Sys2Proof.Tests
end

/-! PROOFS. What the package signals show and take: the identification code (R817) and the fragments of the management port (R812–R815). -/

namespace Sys2Proof.Machine

/-! ## The identification code -/

theorem Part.idcode_toNat (p : Part) : p.idcode.toNat =
    (4 * p.rd GLOBAL_PART_REV_LETTER + p.rd GLOBAL_PART_REV_STEP) % 16 * 2 ^ 28 + 0x1224 * 2 ^ 12 + 0x4B5 * 2 + 1 := by
  rw [Part.idcode, BitVec.toNat_ofNat, Nat.mod_eq_of_lt]
  omega

/-- Settles O59: the four fields of R817 are a sum without overlap, so each is read back by division. -/
theorem idcodeContents : Obligations.IdcodeContents := by
  intro s
  refine ⟨s.part.idcode, _, exec_idcode s, rfl, ?_⟩
  rw [Part.idcode_toNat]
  omega

/-! ## What leaves the ERROR of the port as it is -/

section
variable (p : Part)

@[simp] theorem Part.modMgmt_mgmt (f : Mgmt → Mgmt) : (p.modMgmt f).mgmt = f p.mgmt := rfl

@[simp] theorem Part.huskCapture_mgmt (op status cls fn : Nat) : (p.huskCapture op status cls fn).mgmt = p.mgmt := by
  simp only [Part.huskCapture]
  split <;> simp only [Part.setReg_mgmt, Part.inc_mgmt]

/-- A reply to the management port fills the port and, on I3C, raises the alert. -/
theorem Part.reply_classB_error {c : Issue} (ho : c.origin = none) (hc : c.cls = .b) (status detail : Nat) (data : List Byte) :
    (p.reply c status detail data).mgmt.error = p.mgmt.error := by
  simp only [Part.reply, ho, hc]
  split <;> simp only [Part.emit_mgmt]

@[simp] theorem Part.reply_packetIssue_error (x : List Byte) (status detail : Nat) (data : List Byte) :
    (p.reply (packetIssue x) status detail data).mgmt.error = p.mgmt.error := p.reply_classB_error rfl rfl status detail data

@[simp] theorem Part.huskReject_packetIssue_error (x : List Byte) (op status : Nat) :
    (p.huskReject (packetIssue x) op status).mgmt.error = p.mgmt.error := by
  rw [Part.huskReject, Part.reply_packetIssue_error, Part.huskCapture_mgmt]

/-- Each way the Husk, or in Recovery the ROM, takes a whole packet is a reply, a rejection or nothing. -/
@[simp] theorem Part.submit_error (x : List Byte) : (p.submit x).mgmt.error = p.mgmt.error := by
  simp only [Part.submit]
  split
  case isTrue =>
    split
    · simp only [Part.reply_packetIssue_error, Part.modMgmt_mgmt]
    · split <;> simp only [Part.reply_packetIssue_error, Part.modMgmt_mgmt]
  case isFalse =>
    split
    · simp only [Part.modMgmt_mgmt]
    · split
      · simp only [Part.reply_packetIssue_error, Part.modMgmt_mgmt]
      · split
        · simp only [Part.huskReject_packetIssue_error, Part.modMgmt_mgmt]
        · split <;> simp only [Part.huskReject_packetIssue_error, Part.modMgmt_mgmt]

end

/-! ## A fragment at the management port -/

/-- The port as it checks a fragment with byte 0 `b`: a FIRST fragment opens a packet anew and clears ERROR (R812, R815). -/
def Mgmt.opened (m : Mgmt) (b : BitVec 8) : Mgmt :=
  if b.getLsbD 7 then { m with error := false, rx := [], rxOpen := true, rxSeq := 0 } else m

/-- The checks of R815 on a fragment: on SMBus its packet error code (log 117), an open packet, and the sequence number due. -/
def Mgmt.refuses (m : Mgmt) (b : BitVec 8) (pecOk : Bool) : Bool := (!pecOk && !m.i3c) || !m.rxOpen || decide (b.toNat % 64 ≠ m.rxSeq)

theorem Mgmt.opened_i3c (m : Mgmt) (b : BitVec 8) : (m.opened b).i3c = m.i3c := by
  unfold Mgmt.opened
  split <;> rfl

theorem Mgmt.opened_rxSeq (m : Mgmt) (b : BitVec 8) : (m.opened b).rxSeq = if b.getLsbD 7 then 0 else m.rxSeq := by
  unfold Mgmt.opened
  split <;> rfl

theorem Mgmt.opened_of_first (m : Mgmt) {b : BitVec 8} (h : b.getLsbD 7 = true) :
    m.opened b = { m with error := false, rx := [], rxOpen := true, rxSeq := 0 } := if_pos h

theorem Part.modMgmt_opened (p : Part) (b : BitVec 8) : p.modMgmt (·.opened b) =
    if b.getLsbD 7 then p.modMgmt fun m => { m with error := false, rx := [], rxOpen := true, rxSeq := 0 } else p := by
  unfold Mgmt.opened
  split <;> rfl

theorem Mgmt.refuses_eq_true (m : Mgmt) (b : BitVec 8) (ok : Bool) :
    m.refuses b ok = true ↔ (ok = false ∧ m.i3c = false) ∨ m.rxOpen = false ∨ b.toNat % 64 ≠ m.rxSeq := by
  simp [Mgmt.refuses, or_assoc]

/-- The bytes of a fragment join the packet; the LAST one submits it (R812, R814). -/
def Part.takeFragment (p : Part) (b : BitVec 8) (data : List Byte) : Part :=
  let q := p.modMgmt fun m => { m with rx := m.rx ++ data, rxSeq := (b.toNat % 64 + 1) % 64 }
  if b.getLsbD 6 then q.submit q.mgmt.rx else q

theorem Part.dropPacket_mgmt (p : Part) : p.dropPacket.mgmt = { p.mgmt with error := true, rx := [], rxOpen := false } := rfl

theorem Part.takeFragment_error (p : Part) (b : BitVec 8) (data : List Byte) : (p.takeFragment b data).mgmt.error = p.mgmt.error := by
  simp only [Part.takeFragment]
  split <;> simp only [Part.submit_error, Part.modMgmt_mgmt]

section
variable {s : State} {b : BitVec 8} {data : List Byte} {ok : Bool} (hr : s.pins.inReset = false) (hb : s.part.mgmt.busy = false)
include hr hb

/-- BLOCK_WRITE out of reset and not BUSY, by the names above: the port opens, then drops the packet or takes the fragment. -/
theorem exec_blockWrite_of_idle :
    let p := s.part.modMgmt (·.opened b)
    exec (.blockWrite b data ok) s = .next { s with part := if p.mgmt.refuses b ok then p.dropPacket else p.takeFragment b data } := by
  rw [exec_blockWrite]
  simp only [execBlockWrite, State.onAny, hr, hb, Part.modMgmt_opened, Mgmt.refuses, Part.takeFragment, Bool.false_eq_true, if_false]

theorem State.blockWrite_gives_dropped (h : (s.part.mgmt.opened b).refuses b ok = true) :
    s.gives (.blockWrite b data ok) (fun q => q.mgmt = { s.part.mgmt.opened b with error := true, rx := [], rxOpen := false }) := by
  refine ⟨_, exec_blockWrite_of_idle hr hb, ?_⟩
  rw [Part.modMgmt_mgmt, if_pos h]
  exact Part.dropPacket_mgmt _

theorem State.blockWrite_gives_taken (h : (s.part.mgmt.opened b).refuses b ok = false) :
    s.gives (.blockWrite b data ok) (fun q => q.mgmt.error = (s.part.mgmt.opened b).error) := by
  refine ⟨_, exec_blockWrite_of_idle hr hb, ?_⟩
  rw [Part.modMgmt_mgmt, if_neg (Bool.eq_false_iff.mp h)]
  exact Part.takeFragment_error _ b data

end

/-- Settles O60: a fragment that fails a check of R815 is dropped, and one that passes keeps the ERROR that FIRST has cleared. -/
theorem fragmentErrors : Obligations.FragmentErrors := by
  intro s b data ok hr hb
  refine ⟨fun _ hbad => ?_, fun hfirst hseq hok => ?_⟩
  · have href : (s.part.mgmt.opened b).refuses b ok = true := by
      rw [Mgmt.refuses_eq_true, Mgmt.opened_i3c, Mgmt.opened_rxSeq]
      exact hbad.elim (fun hseq => .inr (.inr hseq)) .inl
    obtain ⟨q, he, hq⟩ := s.blockWrite_gives_dropped (data := data) hr hb href
    exact ⟨q, he, by simp only [hq, and_self]⟩
  · have href : (s.part.mgmt.opened b).refuses b ok = false := by
      rw [Bool.eq_false_iff, ne_eq, Mgmt.refuses_eq_true, Mgmt.opened_of_first _ hfirst]
      rcases hok with rfl | hi3c
      · simp [hseq]
      · simp [hseq, hi3c]
    obtain ⟨q, he, hq⟩ := s.blockWrite_gives_taken (data := data) hr hb href
    exact ⟨q, he, by simp only [hq, Mgmt.opened_of_first _ hfirst]⟩

end Sys2Proof.Machine
